-- ==== Sys2Proof/Word.lean ====
section
/-! DEFINITION. The word types and the sparse-table type the whole model is written over. -/

namespace Sys2Proof

/-- One byte. -/
abbrev Byte := BitVec 8
/-- The widths the spec's structures use (R506). -/
abbrev U16 := BitVec 16
abbrev U32 := BitVec 32
abbrev U64 := BitVec 64
/-- A 128-bit descriptor, route header, tile command or request. -/
abbrev U128 := BitVec 128
/-- A tile register: 32 rows of 128 bytes (R111, R112). -/
abbrev Tile := BitVec 32768
/-- A predicate tile: one bit per byte of a tile (R111, R113). -/
abbrev Pred := BitVec 4096

/-- A sparse table: keys strictly rising, a key not listed holds the table's default. -/
abbrev Table (α : Type) := List (Nat × α)

/-- A byte memory: (address, byte) cells, addresses strictly rising, no zero byte listed; an address not listed reads zero. -/
abbrev Memory := List (Nat × Byte)

/-- A node, by its fault map index 64y + x (R412). -/
abbrev NodeId := Nat

/-- Field [hi:lo] of a word, as a number (R12). -/
def fld {w : Nat} (x : BitVec w) (hi lo : Nat) : Nat := (x.toNat >>> lo) % 2 ^ (hi + 1 - lo)

/-- Bit i of a word. -/
def bit {w : Nat} (x : BitVec w) (i : Nat) : Bool := x.getLsbD i

/-- A word with field [hi:lo] replaced. -/
def setFld {w : Nat} (x : BitVec w) (hi lo : Nat) (v : Nat) : BitVec w :=
  let m := 2 ^ (hi + 1 - lo)
  let old := (x.toNat >>> lo) % m
  BitVec.ofNat w (x.toNat - (old <<< lo) + ((v % m) <<< lo))

/-- A Bool as a bit. -/
def b2n (b : Bool) : Nat := if b then 1 else 0

/-- A word of width w from fields given as (low bit, value). -/
def mkWord (w : Nat) (fs : List (Nat × Nat)) : BitVec w :=
  BitVec.ofNat w (fs.foldl (fun a f => a + (f.2 <<< f.1)) 0)

/-- The number that bytes spell, little-endian (R13). -/
def leNat : List Byte → Nat
  | [] => 0
  | b :: bs => b.toNat + 256 * leNat bs

/-- n bytes of a number, little-endian (R13). -/
def leBytes : Nat → Nat → List Byte
  | 0, _ => []
  | n + 1, v => BitVec.ofNat 8 v :: leBytes n (v / 256)

/-- A number read as a signed number of w bits. -/
def sgn (w : Nat) (v : Nat) : Int := if v % 2 ^ w < 2 ^ (w - 1) then ((v % 2 ^ w : Nat) : Int) else ((v % 2 ^ w : Nat) : Int) - 2 ^ w

/-- A 32-bit saturating counter moved on by k (R110). -/
def satAdd {w : Nat} (c : BitVec w) (k : Nat) : BitVec w :=
  if c.toNat + k < 2 ^ w then BitVec.ofNat w (c.toNat + k) else BitVec.ofNat w (2 ^ w - 1)

end Sys2Proof
end

