-- ==== Sys2Proof/Syntax.lean ====
section
/-! DEFINITION. The commands: one constructor of Instr per row of spec/opcode_table.json, and the types of their operands.
What a physical cause decides (a struck word, a failing lane, a measured value, an authority's answer) is an operand. -/

namespace Sys2Proof

/-- Bits [53:0] of a V or F core instruction word: every field of R114 below CLASS and OP, which are the row. -/
abbrev VWord := BitVec 54
/-- Bits [123:0] of a tile command (R71): every field below the opcode, which is the row. -/
abbrev MWord := BitVec 124

/-- Where a packet is consumed: a node's local port or a hem (R361 EXIT, R10). Hems are numbered as R263: S0–S6 0–6, N0–N6 7–13, W0–W5 14–19, E0–E5 20–25. -/
inductive Place where
  | node (n : NodeId)
  | hem (h : Nat)
  deriving DecidableEq, Repr

/-- Who sends a dictionary request (R503): a segment address and port, or a PCIe function (0 = PF0, n = VF n). -/
inductive Requester where
  | segment (hem : Nat) (addr : Nat) (port : Nat)
  | function (f : Nat)
  deriving DecidableEq, Repr

/-- A dictionary datagram (R500) with the requester it came from; `runt` marks one shorter than its header (R501). -/
structure Req where
  who : Requester
  multicast : Bool
  runt : Bool
  version : Byte
  op : Byte
  flags : U16
  seq : U32
  index : U16
  sub : Byte
  rsv : BitVec 24
  length : U16
  payload : List Byte
  deriving DecidableEq, Repr

/-- The part of a request that a row naming its own object and value still leaves open. -/
structure ReqHdr where
  who : Requester
  seq : U32
  /-- Sent as EXECUTE (0x05) rather than WRITE (0x02). -/
  execute : Bool
  deriving DecidableEq, Repr

/-- One flit as it arrives on a link (R356). `pid` names the packet it carries a part of, `header` is whether it is that packet's header. -/
structure Flit where
  null : Bool
  fseq : Byte
  vc : Nat
  pos : Nat
  ack : Nat
  ackSeq : Byte
  crVc : Nat
  crCnt : Nat
  pid : Nat
  deriving DecidableEq, Repr

/-- A Spakan frame (R605). -/
structure Frame where
  dst : U16
  src : U16
  ty : Byte
  hops : Byte
  stream : U16
  eseq : U64
  step : U32
  len : U32
  arg : U128
  tag : U128
  data : List Byte
  deriving DecidableEq, Repr

/-- A submission ring entry (R543). -/
structure SqEntry where
  op : Byte
  flags : Byte
  tag : U32
  step : U32
  arg : U32
  haddr : U64
  maddr : U64
  len : U32
  nonce : BitVec 96
  gtag : U128
  deriving DecidableEq, Repr

/-- A rectangle of a multicast cover: x0, x1, y0, y1 (R377). -/
structure Rect where
  x0 : Nat
  x1 : Nat
  y0 : Nat
  y1 : Nat
  deriving DecidableEq, Repr

/-- One placement of an image (R212). -/
structure Placement where
  /-- Physical node of each logical pattern. -/
  nodes : List NodeId
  /-- Waypoints: (logical pattern, output endpoint, x, y). -/
  ways : List (Nat × Nat × Nat × Nat)
  /-- Detour entries that the loader writes (R370): (router, entry word). -/
  detours : List (NodeId × U64)
  /-- Knot table: identifier of each logical knot. -/
  knots : List U16
  /-- Multicast cover (R377). -/
  cover : List Rect
  /-- Nodes and routers whose loss an alternate covers. -/
  covers : List NodeId
  /-- Substitute L nodes for re-homed bobbins (R424): (lost index, substitute index). -/
  substitutes : List (Nat × Nat)
  deriving DecidableEq, Repr

/-- What the model reads from a static report (R254, R256, R330, R421). -/
structure Report where
  /-- Flags of each logical pattern: bit 0 NONDET, 1 UNCHECKED, 2 LETOUT, 3 UNSIZED, 4 TRUNC, 5 EXPLICIT_ANCHOR. -/
  flags : List Nat
  /-- EP_MSGS of input endpoints per step: (logical pattern, endpoint, count). -/
  epMsgs : List (Nat × Nat × Nat)
  /-- Digest taps: (logical pattern, output endpoint). -/
  taps : List (Nat × Nat)
  /-- Logical patterns whose resident regions are written after load. -/
  written : List Nat
  deriving DecidableEq, Repr

/-- An Olnyx image (R210). -/
structure Image where
  configs : Nat
  stepKnot0 : Nat
  stepKnot1 : Nat
  commitHome : Nat
  /-- Slot images of 64 KiB, by logical pattern number (R213). -/
  patterns : List Memory
  placements : List Placement
  data : Memory
  report : Report
  deriving DecidableEq, Repr

/-- An array error (R100, R104): what physical causes added to the terms of one pass, and what the sweep lanes saw. -/
structure ArrayError where
  /-- (row, column, difference in units of 2^(a-85)). -/
  deltas : List (Nat × Nat × Int)
  /-- (row, column) whose special state was formed wrongly. -/
  specials : List (Nat × Nat)
  /-- The sweep's mirrored column or row differed. -/
  sweepCol : Bool
  sweepRow : Bool
  deriving DecidableEq, Repr

/-- The target of a plain register write. -/
inductive RegTarget where
  /-- BAR2 of a PCIe function of the active Host hem (R538). -/
  | bar2 (f : Nat) (off : Nat)
  /-- BAR0 mailbox: request buffer bytes and MBX_STATUS (R504). -/
  | bar0 (f : Nat) (off : Nat)
  /-- A node's configuration window, by the warden or an accessor D1 admits (R110, R151, R208, R589). -/
  | node (n : NodeId) (off : Nat)
  deriving DecidableEq, Repr

/-- A supply branch with an electronic fuse (R633). -/
inductive Branch where
  | panel (p : Nat)
  | hem (h : Nat)
  deriving DecidableEq, Repr

/-- What a C node's ROM finds in one flash bank (R466). -/
structure BankRead where
  readable : Bool
  rsaOk : Bool
  slhOk : Bool
  deriving DecidableEq, Repr

/-- How one steward C node fares in bring-up phase 3 (R466, R467). -/
structure BootRead where
  romOk : Bool
  bank0 : BankRead
  bank1 : BankRead
  deriving DecidableEq, Repr

/-- One node failure of a bring-up test: node, code (R494). -/
structure TestFail where
  node : NodeId
  code : Byte
  deriving DecidableEq, Repr

/-- A fault map event a warden is told of (R399, R407). -/
inductive FaultCause where
  /-- A node's recorded hardware fault. -/
  | node (n : NodeId)
  /-- Router buffer parity at a router (R402). -/
  | routerParity (r : NodeId)
  /-- A down link reported at a router port. -/
  | link (r : NodeId) (port : Nat)
  deriving DecidableEq, Repr

/-- A pairing payload: HELLO (R614). -/
structure HelloInfo where
  serial : BitVec 128
  addr : U16
  domains : List U16
  nonce : U128
  deriving DecidableEq, Repr

/-- A fabric budget entry staged for an output port class (R379): RATE, CAP, HARD. -/
structure BudgetEntry where
  rate : Nat
  cap : Nat
  hard : Bool
  deriving DecidableEq, Repr

/-- The commands. -/
inductive Instr where
  -- M core tile commands and events (chapter 3)
  | mNop (n : NodeId) (w : MWord)
  | group (n : NodeId) (w : MWord)
  | pass (n : NodeId) (w : MWord)
  | passScan (n : NodeId) (g : Nat)
  | loopTableToken (n : NodeId) (loop : Nat)
  | passIssue (n : NodeId) (struck : Option Nat)
  | passComplete (n : NodeId) (err : ArrayError)
  | mDrain (n : NodeId) (w : MWord)
  | drainIssue (n : NodeId) (differ : Bool) (struck : Option Nat)
  | drainResume (n : NodeId)
  | tileRelease (n : NodeId)
  | mRelease (n : NodeId) (w : MWord)
  | releaseTakesEffect (n : NodeId)
  | mMark (n : NodeId) (w : MWord)
  | mMarkComplete (n : NodeId)
  | cuffld (n : NodeId) (w : MWord)
  | arrayDiagnostic (n : NodeId) (rows : List Nat) (cols : List Nat)
  -- V and F core control (chapters 4, 6)
  | ctlNop (n : NodeId) (w : VWord)
  | loopCount (n : NodeId) (w : VWord)
  | loopLoad (n : NodeId) (w : VWord)
  | loopRead (n : NodeId) (w : VWord)
  | loopJump (n : NodeId) (w : VWord)
  | brtok (n : NodeId) (w : VWord)
  | vMark (n : NodeId) (w : VWord)
  | vMarkComplete (n : NodeId) (patrol1 : Bool) (patrol2 : Bool)
  | slot (n : NodeId) (w : VWord)
  -- Scalar
  | sclAdd (n : NodeId) (w : VWord)
  | sclSub (n : NodeId) (w : VWord)
  | sclMul (n : NodeId) (w : VWord)
  | sclAnd (n : NodeId) (w : VWord)
  | sclOr (n : NodeId) (w : VWord)
  | sclXor (n : NodeId) (w : VWord)
  | sclShl (n : NodeId) (w : VWord)
  | sclShr (n : NodeId) (w : VWord)
  | sclSra (n : NodeId) (w : VWord)
  | movi (n : NodeId) (w : VWord)
  | movhi (n : NodeId) (w : VWord)
  -- Tile integer; lane is the lane whose residue check fails (R128)
  | tintAdd (n : NodeId) (w : VWord) (lane : Option Nat)
  | tintSub (n : NodeId) (w : VWord) (lane : Option Nat)
  | tintMul (n : NodeId) (w : VWord) (lane : Option Nat)
  | mulh (n : NodeId) (w : VWord) (lane : Option Nat)
  | tintAbs (n : NodeId) (w : VWord)
  | tintNeg (n : NodeId) (w : VWord)
  | tintMin (n : NodeId) (w : VWord)
  | tintMax (n : NodeId) (w : VWord)
  | mac (n : NodeId) (w : VWord) (lane : Option Nat)
  | tintSel (n : NodeId) (w : VWord)
  -- Tile logic
  | tlogAnd (n : NodeId) (w : VWord)
  | tlogOr (n : NodeId) (w : VWord)
  | tlogXor (n : NodeId) (w : VWord)
  | tlogNot (n : NodeId) (w : VWord)
  | tlogShl (n : NodeId) (w : VWord) (lane : Option Nat)
  | tlogShr (n : NodeId) (w : VWord)
  | tlogSra (n : NodeId) (w : VWord)
  | srar (n : NodeId) (w : VWord)
  -- Tile floating point
  | tfpAdd (n : NodeId) (w : VWord) (lane : Option Nat)
  | tfpSub (n : NodeId) (w : VWord) (lane : Option Nat)
  | tfpMul (n : NodeId) (w : VWord) (lane : Option Nat)
  | fma (n : NodeId) (w : VWord) (lane : Option Nat)
  | tfpMin (n : NodeId) (w : VWord)
  | tfpMax (n : NodeId) (w : VWord)
  | tfpAbs (n : NodeId) (w : VWord)
  | tfpNeg (n : NodeId) (w : VWord)
  | tfpSel (n : NodeId) (w : VWord)
  -- Conversions
  | cvt (n : NodeId) (w : VWord)
  | cvtmx (n : NodeId) (w : VWord)
  | cvtmxSquare (n : NodeId) (w : VWord)
  -- Compares and predicates
  | tcmpEq (n : NodeId) (w : VWord)
  | tcmpNe (n : NodeId) (w : VWord)
  | tcmpLt (n : NodeId) (w : VWord)
  | tcmpLe (n : NodeId) (w : VWord)
  | tcmpGt (n : NodeId) (w : VWord)
  | tcmpGe (n : NodeId) (w : VWord)
  | pand (n : NodeId) (w : VWord)
  | por (n : NodeId) (w : VWord)
  | pnot (n : NodeId) (w : VWord)
  | popc (n : NodeId) (w : VWord)
  -- Permutes and reductions
  | compress (n : NodeId) (w : VWord)
  | expand (n : NodeId) (w : VWord)
  | trans (n : NodeId) (w : VWord)
  | bcast (n : NodeId) (w : VWord)
  | rowb (n : NodeId) (w : VWord)
  | rsum (n : NodeId) (w : VWord)
  | rmax (n : NodeId) (w : VWord)
  | rmin (n : NodeId) (w : VWord)
  -- Scratchpad; struck is the address of a word whose stored bits were struck (R160)
  | ldt (n : NodeId) (w : VWord) (struck : Option Nat)
  | stt (n : NodeId) (w : VWord)
  | lds (n : NodeId) (w : VWord) (struck : Option Nat)
  | sts (n : NodeId) (w : VWord)
  -- Channels and knots
  | send (n : NodeId) (w : VWord) (struck : Option Nat)
  | sendProceeds (n : NodeId)
  | sendtok (n : NodeId) (w : VWord)
  | recv (n : NodeId) (w : VWord)
  | recvRelonly (n : NodeId) (w : VWord)
  | recvany (n : NodeId) (w : VWord)
  | recvCompletes (n : NodeId)
  | kntArrive (n : NodeId) (w : VWord)
  | kntAdd (n : NodeId) (w : VWord)
  | kntWait (n : NodeId) (w : VWord)
  | kntReset (n : NodeId) (w : VWord)
  | knotReply (at' : Place)
  -- Function core; differ is a difference of the duplicated units (R147)
  | exp2 (n : NodeId) (w : VWord) (differ : Bool)
  | log2 (n : NodeId) (w : VWord) (differ : Bool)
  | rcp (n : NodeId) (w : VWord) (differ : Bool)
  | rsqrt (n : NodeId) (w : VWord) (differ : Bool)
  | sin (n : NodeId) (w : VWord) (differ : Bool)
  | cos (n : NodeId) (w : VWord) (differ : Bool)
  | tanh (n : NodeId) (w : VWord) (differ : Bool)
  | erf (n : NodeId) (w : VWord) (differ : Bool)
  | smx (n : NodeId) (w : VWord) (differ : Bool)
  | smn (n : NodeId) (w : VWord) (differ : Bool)
  | smerge (n : NodeId) (w : VWord) (differ : Bool)
  | topk (n : NodeId) (w : VWord) (differ : Bool)
  | sort (n : NodeId) (w : VWord) (differ : Bool)
  | sample (n : NodeId) (w : VWord) (differ : Bool)
  -- Packet arrivals at a node or hem: the first packet of the kind that has reached its exit there
  | recordArrival (at' : Place)
  | creditArrival (at' : Place)
  | creditReturnTimeout (n : NodeId) (ep : Nat)
  | nackArrival (at' : Place)
  | knotArriveReq (n : NodeId)
  | knotAddReq (n : NodeId)
  | knotWaitReq (n : NodeId)
  | knotResetReq (n : NodeId)
  | knotRetryResend (at' : Place)
  | stepCommitArrival (at' : Place)
  | stepVetoReport (p : Nat)
  | timingReportReceipt
  | seamOrderArrival (n : NodeId)
  | stopStep (n : NodeId)
  | stopHold (n : NodeId)
  | stopRelease (n : NodeId)
  -- Routers and links
  | flitReceive (r : NodeId) (port : Nat) (f : Flit) (crcOk : Bool) (parityOk : Bool)
  | nakReceive (r : NodeId) (port : Nat) (fseq : Byte)
  | linkIdleTimeout (r : NodeId) (port : Nat)
  | nullKeepalive (r : NodeId) (port : Nat)
  | wardenLinkDown (r : NodeId) (port : Nat)
  | linkRetrain (r : NodeId) (port : Nat) (trained : Bool)
  | packetForward (pid : Nat)
  | multicastForward (pid : Nat)
  | budgetWindowStart (r : NodeId)
  | telemetryWindowEnd (panel : Nat) (sums : List (NodeId × List Nat))
  | linkHoldEnd (panel : Nat)
  -- Module memory requests
  | readReq (at' : Place) (struckWord : Option Nat) (tagOk : Bool)
  | writeReq (at' : Place)
  | readResp (at' : Place)
  | writeAck (at' : Place)
  | pttEntryFetched (at' : Place) (p : Nat) (page : Nat)
  -- Loading over the mesh
  | loadChunk (n : NodeId) (image : Nat) (attempt : Nat) (chunk : U32) (chunks : Nat) (data : List Byte)
  | loadChunkTimeout (n : NodeId) (image : Nat)
  | loadBarrierRelease
  -- L node services
  | srvRead (n : NodeId) (ep : Nat) (struckWord : Option Nat) (differ : Bool)
  | hint (n : NodeId) (ep : Nat)
  | stepEnd (n : NodeId) (ep : Nat)
  | lMarkComplete (n : NodeId)
  | append (n : NodeId) (ep : Nat)
  | replace (n : NodeId) (ep : Nat)
  | promotionComplete (n : NodeId) (tagOk : Bool) (differ : Bool)
  | demotionComplete (n : NodeId) (differ : Bool)
  | patrolScrub (n : NodeId) (corrected : Nat) (struckWord : Option Nat) (skipped : Bool)
  | unmap (p : Nat) (page : Nat)
  | releaseScrubComplete (p : Nat)
  -- Faults, patrol, re-placement, stewards
  | faultNotification (c : FaultCause)
  | faultEventReceipt
  | faultMapFlashWrite (ok : Bool)
  | patrolStart (panel : Nat) (patrol1 : Bool) (patrol2 : Bool)
  | patrolDefer (n : NodeId)
  | pressureMove (p : Nat)
  | stewardHeartbeat
  | journalEntry
  | standbyTakeover
  -- Hangs and resets
  | hangWindowExpiry (panel : Nat) (p : Nat)
  | quietReceipt (p : Nat)
  | contextWatchFire (p : Nat)
  | nodeResetDeadline (n : NodeId)
  | partitionResetWaitEnd (p : Nat)
  | partitionResetDeadline (p : Nat)
  | moduleResetDeadline
  | watchdogStroke
  | hemWatchdogExpiry (h : Nat)
  | stateScanOut (n : NodeId)
  | scanIn (n : NodeId)
  -- Dictionary
  | mbxDoorbell (f : Nat)
  | dictRead (r : Req)
  | dictWrite (r : Req)
  | writeStaged (r : Req)
  | commit (r : Req)
  | commitDiscard (r : Req)
  | commitDryrun (r : Req)
  | configActivate (p : Nat)
  | execute (r : Req)
  | segment (r : Req)
  | domainTransferTimeout (xfer : Nat)
  | stageTimeout
  | dictQueueTimeout
  | neighbourSolicitation (hem : Nat) (target : U128)
  | moduleRequestReady (h : ReqHdr)
  | moduleRequestSafe (h : ReqHdr)
  | moduleRequestService (h : ReqHdr)
  | start (h : ReqHdr) (p : Nat)
  | pause (h : ReqHdr) (p : Nat)
  | resume (h : ReqHdr) (p : Nat)
  | unload (h : ReqHdr) (p : Nat)
  | forceSeam (h : ReqHdr) (p : Nat)
  | imageLoad (h : ReqHdr) (p : Nat) (img : Image)
  | armBarrierComplete (p : Nat)
  | tenantSeed (h : ReqHdr) (p : Nat) (v : U64)
  | bobbinOpen (h : ReqHdr) (payload : List Byte)
  | bobbinClose (h : ReqHdr) (handle : U32)
  | bobbinDemoteAll (h : ReqHdr) (handle : U32)
  | bobbinPromoteAll (h : ReqHdr) (handle : U32)
  | fenceNode (h : ReqHdr) (n : U32)
  | retestNode (h : ReqHdr) (n : U32) (pass : Bool)
  | resetNode (h : ReqHdr) (n : U32)
  | resetCluster (h : ReqHdr) (c : Byte)
  | resetPartition (h : ReqHdr) (p : Byte)
  | resetModule (h : ReqHdr) (magic : U32)
  | counterClear (h : ReqHdr) (v : Byte)
  | attest (h : ReqHdr) (payload : List Byte)
  | keyDeliver (h : ReqHdr) (p : Nat) (payload : List Byte)
  | keyRotate (h : ReqHdr) (p : Nat) (v : Byte)
  | walkerPageMove (p : Nat)
  | debugClassRaise (h : ReqHdr) (cluster : Nat) (cls : Byte)
  | debugClassLower (h : ReqHdr) (cluster : Nat) (cls : Byte)
  | reseal (h : ReqHdr) (payload : List Byte)
  | fwUpdate (h : ReqHdr) (bank : List Byte) (wroteA : Bool) (wroteB : Bool)
  | fwActivateInPlace (h : ReqHdr) (runsNew : Bool)
  | fwActivateByReset (h : ReqHdr)
  | acceptBelowGrade (h : ReqHdr) (v : Byte)
  | serviceTest (h : ReqHdr) (v : U32) (tested : Nat) (failed : Nat) (durationMs : Nat)
  | panelRequest (h : ReqHdr) (panel : Nat) (v : Byte)
  | powerLimit (h : ReqHdr) (v : U32)
  | twinPair (h : ReqHdr) (record : List Byte)
  | twinDetach (h : ReqHdr) (v : Byte)
  -- Host registers and rings
  | registerWrite (t : RegTarget) (v : U64)
  | sqTailWrite (f : Nat) (ring : Nat) (tail : U16) (entries : List SqEntry)
  | sqNop (f : Nat) (ring : Nat)
  | input (f : Nat) (ring : Nat) (data : List Byte)
  | copyIn (f : Nat) (ring : Nat) (data : List Byte)
  | copyOut (f : Nat) (ring : Nat)
  | import' (f : Nat) (ring : Nat) (data : List Byte)
  | sqImage (f : Nat) (ring : Nat) (img : Image)
  | sqKnotArrive (f : Nat) (ring : Nat)
  | sqKnotAdd (f : Nat) (ring : Nat)
  | sqKnotWait (f : Nat) (ring : Nat)
  | sqKnotReset (f : Nat) (ring : Nat)
  | stepwait (f : Nat) (ring : Nat)
  | cqHeadWrite (f : Nat) (ring : Nat) (head : U16)
  | ringCfgWrite (f : Nat) (ring : Nat) (v : U64)
  | outReadWrite (f : Nat) (p : Nat) (v : U64)
  | outputRecordWrite (p : Nat)
  | bar4Read (f : Nat) (off : Nat) (len : Nat)
  | bar4Write (f : Nat) (off : Nat) (data : List Byte)
  | takeover (v : U64)
  | pcieL0LossTimeout
  | functionLevelResetVf (f : Nat)
  | functionLevelResetPf0
  | perstN (hem : Nat) (asserted : Bool)
  -- Twin, Spakan links, relay
  | hello (port : Nat) (f : Frame) (info : HelloInfo)
  | proof (port : Nat) (f : Frame)
  | pairingTimeout
  | heartbeatSend
  | heartbeat (port : Nat) (f : Frame)
  | ack (port : Nat) (f : Frame)
  | ackTimer (stream : U16)
  | resendTimer (stream : U16)
  | appendFrame (port : Nat) (f : Frame)
  | inputFrame (port : Nat) (f : Frame)
  | endFrame (port : Nat) (f : Frame)
  | durable (port : Nat) (f : Frame)
  | commitFrame (port : Nat) (f : Frame)
  | fetch (port : Nat) (f : Frame)
  | page (port : Nat) (f : Frame)
  | digest (port : Nat) (f : Frame)
  | exchange (port : Nat) (f : Frame)
  | spakanMgmt (port : Nat) (f : Frame)
  | relayForward (port : Nat) (f : Frame)
  | relayExpiry (port : Nat)
  | twinTimeout
  | spakanLinkTraining (port : Nat) (lanesFailed : Byte) (polarity : Byte) (permuted : Bool) (light : Bool) (isSpakan : Bool)
  | spakanLinkIdleTimeout (port : Nat)
  | spakanRetrain (port : Nat)
  -- Power, clocks, heat, connectors
  | pwrEnAssert (conn : Nat)
  | pwrEnDeassert (conn : Nat)
  | pwrEnMismatch
  | connectorUndervoltage (c : Nat)
  | connectorOvervoltage (c : Nat)
  | connectorReversed (c : Nat)
  | connectorRequalified (c : Nat)
  | branchFuseOpen (b : Branch)
  | sensePairFault (c : Nat) (shorted : Bool)
  | refclockLost
  | limiterRun (input : Nat) (branch : List (Nat × Nat))
  | thermalSensorRead (panel : Nat) (logic : Int) (dram : Int)
  | thermalComparatorPark (panel : Nat)
  | voltageLoop (panel : Nat) (slack : Nat)
  | coolantInletHigh (inlet : Int)
  | tackPress (conn : Nat)
  | tackHeld (conn : Nat)
  | tackWindowExpiry
  | serviceJumper (fitted : Bool)
  | selvageMeasure (ohms : Nat) (toGround : Bool)
  | selvageBreak
  -- Bring-up
  | bringupPhase1 (refclk : Bool) (badPanels : List Nat)
  | bringupPhase2 (badLinks : List (NodeId × Nat))
  | bringupPhase3 (bootA : BootRead) (bootB : BootRead) (sameImage : Bool)
  | bringupPhase4 (badDigest : List NodeId)
  | bringupPhase5 (badRouters : List NodeId) (badLinks : List (NodeId × Nat)) (badC : List NodeId) (offsets : List Int)
  | bringupPhase6 (badDigest : List NodeId)
  | bringupPhase7 (votes : List (NodeId × NodeId × Bool)) (direct : List (NodeId × Bool))
  | bringupPhase8 (rows : List (NodeId × List Nat)) (cols : List (NodeId × List Nat)) (missed : List NodeId)
  | bringupPhase9 (badRows : List (NodeId × Nat × Nat)) (badL : List NodeId)
  | bringupPhase10 (badRows : List (NodeId × Nat)) (badL : List NodeId) (badPackages : List Nat)
  | bringupPhase11 (storedValid : Bool)
  | bringupPhase12 (elapsedMs : Nat)
  | testWindowResume (panel : Nat)
  -- Late rows
  | contextResetDeadline (n : NodeId)
  | ideStreamEstablished (f : Nat)
  | boltPackageFailed (package : Nat)
  | inputPowerOverload (avg : Nat)
  | handoverAlarmCapLift (panel : Nat)
  | pcieLinkUp (hem : Nat) (width : Nat) (rate : Nat)
  | vfEnable (f : Nat) (enable : Bool)
  | t1sPolarityReversed (hem : Nat)
  deriving DecidableEq, Repr

end Sys2Proof
end

