-- ==== Sys2Proof/Machine/Table.lean ====
section
/-! DEFINITION. The one way tables, sets and byte memories are read and written. -/

namespace Sys2Proof

/-- What a table holds under key k, d when the key is not listed. -/
def Table.get {α : Type} (d : α) : Table α → Nat → α
  | [], _ => d
  | (k, v) :: t, i => if k = i then v else if i < k then d else Table.get d t i

/-- The table with key i holding v, keys kept rising. -/
def Table.put {α : Type} (t : Table α) (i : Nat) (v : α) : Table α :=
  match t with
  | [] => [(i, v)]
  | (k, u) :: t => if i < k then (i, v) :: (k, u) :: t else if k = i then (i, v) :: t else (k, u) :: Table.put t i v

/-- The table without key i. -/
def Table.del {α : Type} (t : Table α) (i : Nat) : Table α :=
  match t with
  | [] => []
  | (k, u) :: t => if i < k then (k, u) :: t else if k = i then t else (k, u) :: Table.del t i

/-- Whether key i is listed. -/
def Table.has {α : Type} (t : Table α) (i : Nat) : Bool := t.any (fun e => e.1 == i)

/-- The value listed under key i, if any. -/
def Table.find? {α : Type} (t : Table α) (i : Nat) : Option α := (List.find? (fun e => e.1 == i) t).map (·.2)

/-- Every listed value changed by f. -/
def Table.mapVals {α β : Type} (f : Nat → α → β) (t : Table α) : Table β := List.map (fun e => (e.1, f e.1 e.2)) t

/-- Keys strictly rising: the canonical form of a table's keys. -/
def rising : List Nat → Bool
  | [] => true
  | [_] => true
  | a :: b :: t => decide (a < b) && rising (b :: t)

/-- The canonical form of a table. -/
def Table.wf {α : Type} (t : Table α) : Bool := rising (List.map (·.1) t)

/-- The canonical form of a byte memory: addresses strictly rising and no zero byte listed. -/
def Memory.wf (m : Memory) : Bool := rising (List.map (·.1) m) && m.all (fun c => c.2 != 0)

/-- The byte at an address; an unlisted address reads zero. -/
def Memory.byte (m : Memory) (a : Nat) : Byte := Table.get 0 m a

/-- The memory with one byte written; a zero byte is not listed. -/
def Memory.store (m : Memory) (a : Nat) (b : Byte) : Memory :=
  if b = 0 then Table.del m a else Table.put m a b

/-- n bytes from address a, of cells none of which lies below a. -/
def Memory.bytesFrom : Memory → Nat → Nat → List Byte
  | _, _, 0 => []
  | [], a, n + 1 => 0 :: Memory.bytesFrom [] (a + 1) n
  | (k, v) :: t, a, n + 1 =>
    if k = a then v :: Memory.bytesFrom t (a + 1) n else 0 :: Memory.bytesFrom ((k, v) :: t) (a + 1) n

/-- n bytes from address a. -/
def Memory.bytes (m : Memory) (a n : Nat) : List Byte :=
  Memory.bytesFrom (List.filter (fun c => decide (a ≤ c.1)) m) a n

/-- The nonzero bytes of a list as cells from address a upward. -/
def cellsOf (a : Nat) : List Byte → Memory
  | [] => []
  | b :: bs => if b = 0 then cellsOf (a + 1) bs else (a, b) :: cellsOf (a + 1) bs

/-- Bytes written from address a upward. -/
def Memory.write (m : Memory) (a : Nat) (bs : List Byte) : Memory :=
  List.filter (fun c => decide (c.1 < a)) m ++ (cellsOf a bs ++ List.filter (fun c => decide (a + bs.length ≤ c.1)) m)

/-- Every byte of [a, a + n) zero. -/
def Memory.zero (m : Memory) (a n : Nat) : Memory := List.filter (fun c => decide (c.1 < a ∨ a + n ≤ c.1)) m

/-- An n-byte little-endian number at address a (R13). -/
def Memory.num (m : Memory) (a n : Nat) : Nat := leNat (m.bytes a n)

/-- A sorted set of numbers with x put in. -/
def setIns (l : List Nat) (x : Nat) : List Nat :=
  match l with
  | [] => [x]
  | y :: t => if x < y then x :: y :: t else if x = y then y :: t else y :: setIns t x

/-- A set without x. -/
def setDel (l : List Nat) (x : Nat) : List Nat := l.filter (fun y => y != x)

/-- The numbers a, a+1, …, a+n-1. -/
def rangeFrom (a : Nat) : Nat → List Nat
  | 0 => []
  | n + 1 => a :: rangeFrom (a + 1) n

/-- A list's element i, d outside it. -/
def nth {α : Type} (d : α) (l : List α) (i : Nat) : α := l.getD i d

/-- The list with element i replaced (unchanged outside it). -/
def setNth {α : Type} (l : List α) (i : Nat) (v : α) : List α := l.set i v

/-- The first element that satisfies p together with the list without it. -/
def takeFirst {α : Type} (p : α → Bool) : List α → Option (α × List α)
  | [] => none
  | x :: t => if p x then some (x, t) else (takeFirst p t).map (fun r => (r.1, x :: r.2))

/-- Set bits of a bit set held as a word: bits [a, a+n) become v. -/
def setBits {w : Nat} (x : BitVec w) (a n : Nat) (v : Bool) : BitVec w :=
  if v then BitVec.ofNat w (x.toNat ||| ((2 ^ n - 1) <<< a)) else setFld x (a + n - 1) a 0

end Sys2Proof
end

