-- ==== Sys2Proof/Machine/Crypto.lean ====
section
/-! DEFINITION. The published algorithms the spec names: SHA-384, HMAC and HKDF over it, AES-256, XTS, GCM, and Philox-4×32 (R141). -/

namespace Sys2Proof

/-- The largest r with r^k ≤ n, found bit by bit from bit b down. -/
def rootBits (k n : Nat) : Nat → Nat → Nat
  | 0, r => r
  | b + 1, r => let c := r + 2 ^ b; rootBits k n b (if c ^ k ≤ n then c else r)

/-- Whether p is prime, by trial division. -/
def isPrime (p : Nat) : Bool := decide (2 ≤ p) && (List.range p).all (fun d => decide (d < 2) || p % d != 0)
/-- The first 80 primes. -/
def primes80 : List Nat := (List.range 410).filter isPrime

/-- SHA-512 round constants: 64 fraction bits of the cube roots of the first 80 primes. -/
def shaK : List Nat := primes80.map (fun p => rootBits 3 (p * 2 ^ 192) 68 0 % 2 ^ 64)
/-- SHA-384 initial value: 64 fraction bits of the square roots of the 9th to 16th primes. -/
def sha384Init : List Nat := ((primes80.drop 8).take 8).map (fun p => rootBits 2 (p * 2 ^ 128) 68 0 % 2 ^ 64)

def rotr64 (x n : Nat) : Nat := (x >>> n) ||| ((x <<< (64 - n)) % 2 ^ 64)

/-- A big-endian number of bytes. -/
def beNat (bs : List Byte) : Nat := bs.foldl (fun a b => a * 256 + b.toNat) 0
/-- n bytes of a number, big-endian. -/
def beBytes (n v : Nat) : List Byte := (leBytes n v).reverse

/-- The message schedule of one block. -/
def shaSchedule (blk : List Nat) : List Nat :=
  ((List.range 64).foldl (fun (w : List Nat) _ =>
    -- w is newest first
    let g (i : Nat) := w.getD i 0
    let s0 := let x := g 14; Nat.xor (rotr64 x 1) (Nat.xor (rotr64 x 8) (x >>> 7))
    let s1 := let x := g 1; Nat.xor (rotr64 x 19) (Nat.xor (rotr64 x 61) (x >>> 6))
    ((g 15 + s0 + g 6 + s1) % 2 ^ 64) :: w) blk.reverse).reverse

/-- One compression round. -/
def shaRound (h : List Nat) (wk : Nat × Nat) : List Nat :=
  match h with
  | [a, b, c, d, e, f, g, hh] =>
    let s1 := Nat.xor (rotr64 e 14) (Nat.xor (rotr64 e 18) (rotr64 e 41))
    let ch := Nat.xor (e &&& f) (Nat.xor e (2 ^ 64 - 1) &&& g)
    let t1 := hh + s1 + ch + wk.2 + wk.1
    let s0 := Nat.xor (rotr64 a 28) (Nat.xor (rotr64 a 34) (rotr64 a 39))
    let maj := Nat.xor (a &&& b) (Nat.xor (a &&& c) (b &&& c))
    [(t1 + s0 + maj) % 2 ^ 64, a, b, c, (d + t1) % 2 ^ 64, e, f, g]
  | h => h

/-- One block of 128 bytes. -/
def shaBlock (h : List Nat) (blk : List Byte) : List Nat :=
  let ws := shaSchedule ((List.range 16).map (fun i => beNat ((blk.drop (8 * i)).take 8)))
  let r := (ws.zip shaK).foldl shaRound h
  (h.zip r).map (fun p => (p.1 + p.2) % 2 ^ 64)

/-- A list cut into n chunks of k elements. -/
def chunks {α : Type} (k : Nat) : Nat → List α → List (List α)
  | 0, _ => []
  | n + 1, l => l.take k :: chunks k n (l.drop k)

/-- SHA-384. -/
def sha384 (m : List Byte) : List Byte :=
  let len := m.length
  let z := (239 - len % 128) % 128
  let padded := m ++ (0x80 : Byte) :: (List.replicate z 0 ++ beBytes 16 (8 * len))
  (((chunks 128 (padded.length / 128) padded).foldl shaBlock sha384Init).take 6).flatMap (beBytes 8)

def xorBytes (a b : List Byte) : List Byte := List.zipWith (fun x y => x ^^^ y) a b

/-- HMAC-SHA-384. -/
def hmac384 (key msg : List Byte) : List Byte :=
  let k0 := if key.length > 128 then sha384 key else key
  let k := k0 ++ List.replicate (128 - k0.length) 0
  sha384 (k.map (fun b => b ^^^ 0x5C) ++ sha384 (k.map (fun b => b ^^^ 0x36) ++ msg))

/-- HKDF-SHA-384: extract then expand to n bytes, at most 48 × 255. -/
def hkdf384 (salt ikm info : List Byte) (n : Nat) : List Byte :=
  let prk := hmac384 salt ikm
  let step (acc : List Byte × List Byte) (i : Nat) :=
    let t := hmac384 prk (acc.1 ++ info ++ [BitVec.ofNat 8 (i + 1)])
    (t, acc.2 ++ t)
  (((List.range ((n + 47) / 48)).foldl step ([], [])).2).take n

/-- Doubling in the AES field. -/
def gfDbl (x : Nat) : Nat := let y := x * 2; if y ≥ 256 then Nat.xor (y % 256) 0x1B else y
/-- Product in the AES field. -/
def gfMul (a b : Nat) : Nat :=
  ((List.range 8).foldl (fun (r : Nat × Nat) i => (if (b >>> i) % 2 = 1 then Nat.xor r.1 r.2 else r.1, gfDbl r.2)) (0, a)).1
/-- x^254, the inverse in the AES field. -/
def gfInv (x : Nat) : Nat :=
  let sq (y : Nat) := gfMul y y
  let x2 := sq x; let x4 := sq x2; let x8 := sq x4; let x16 := sq x8; let x32 := sq x16; let x64 := sq x32; let x128 := sq x64
  gfMul x2 (gfMul x4 (gfMul x8 (gfMul x16 (gfMul x32 (gfMul x64 x128)))))
def rotl8 (x n : Nat) : Nat := ((x <<< n) ||| (x >>> (8 - n))) % 256
/-- The AES substitution of one byte. -/
def aesSub (x : Nat) : Nat :=
  let i := gfInv x
  Nat.xor 0x63 (Nat.xor i (Nat.xor (rotl8 i 1) (Nat.xor (rotl8 i 2) (Nat.xor (rotl8 i 3) (rotl8 i 4)))))
def aesSbox : List Nat := (List.range 256).map aesSub
def aesInvSbox : List Nat := (List.range 256).map (fun y => aesSbox.findIdx (fun z => z == y))

/-- AES-256 key schedule: 60 words of 4 bytes. -/
def aesKeys (key : List Byte) : List (List Nat) :=
  let w0 := (chunks 4 8 (key.map BitVec.toNat)).reverse
  let step (st : List (List Nat) × Nat) (i : Nat) :=
    let prev := st.1.getD 0 []
    let t :=
      if i % 8 = 0 then
        let r := (prev.drop 1 ++ prev.take 1).map (fun b => aesSbox.getD b 0)
        (Nat.xor (r.getD 0 0) st.2) :: r.drop 1
      else if i % 8 = 4 then prev.map (fun b => aesSbox.getD b 0) else prev
    (List.zipWith Nat.xor (st.1.getD 7 []) t :: st.1, if i % 8 = 0 then gfDbl st.2 else st.2)
  ((((List.range 52).map (· + 8)).foldl step (w0, 1)).1).reverse

/-- Round keys as 15 lists of 16 bytes. -/
def aesRoundKeys (key : List Byte) : List (List Nat) := (chunks 4 15 (aesKeys key)).map List.flatten

def aesMix (m : List Nat) (st : List Nat) : List Nat :=
  (chunks 4 4 st).flatMap (fun c => (List.range 4).map (fun i =>
    (List.range 4).foldl (fun a j => Nat.xor a (gfMul (m.getD ((j + 4 - i) % 4) 0) (c.getD j 0))) 0))

/-- AES-256 encryption of one block. -/
def aesEnc (key blk : List Byte) : List Byte :=
  let ks := aesRoundKeys key
  let s0 := List.zipWith Nat.xor (blk.map BitVec.toNat) (ks.getD 0 [])
  let shift (s : List Nat) := (List.range 16).map (fun i => s.getD ((i + 4 * (i % 4)) % 16) 0)
  let sub (s : List Nat) := s.map (fun b => aesSbox.getD b 0)
  let s := (List.range 13).foldl (fun s i => List.zipWith Nat.xor (aesMix [2, 3, 1, 1] (shift (sub s))) (ks.getD (i + 1) [])) s0
  (List.zipWith Nat.xor (shift (sub s)) (ks.getD 14 [])).map (BitVec.ofNat 8)

/-- AES-256 decryption of one block. -/
def aesDec (key blk : List Byte) : List Byte :=
  let ks := aesRoundKeys key
  let s0 := List.zipWith Nat.xor (blk.map BitVec.toNat) (ks.getD 14 [])
  let shift (s : List Nat) := (List.range 16).map (fun i => s.getD ((i + 12 * (i % 4)) % 16) 0)
  let sub (s : List Nat) := s.map (fun b => aesInvSbox.getD b 0)
  let s := (List.range 13).foldl (fun s i => aesMix [14, 11, 13, 9] (List.zipWith Nat.xor (sub (shift s)) (ks.getD (13 - i) []))) s0
  (List.zipWith Nat.xor (sub (shift s)) (ks.getD 0 [])).map (BitVec.ofNat 8)

/-- AES-256-XTS over a data unit of whole blocks, key 64 bytes, tweak a 128-bit little-endian integer (R284). -/
def aesXts (enc : Bool) (key : List Byte) (tweak : Nat) (data : List Byte) : List Byte :=
  let k1 := key.take 32
  let t0 := leNat (aesEnc (key.drop 32) (leBytes 16 tweak))
  let dbl (t : Nat) := let u := t * 2; if u ≥ 2 ^ 128 then Nat.xor (u % 2 ^ 128) 0x87 else u
  (((chunks 16 (data.length / 16) data).foldl (fun (st : Nat × List Byte) b =>
    let t := leBytes 16 st.1
    let x := xorBytes b t
    (dbl st.1, st.2 ++ xorBytes (if enc then aesEnc k1 x else aesDec k1 x) t)) (t0, [])).2)

/-- Product in the GCM field, both big-endian 128-bit numbers. -/
def gcmMul (x y : Nat) : Nat :=
  ((List.range 128).foldl (fun (r : Nat × Nat) i =>
    (if (x >>> (127 - i)) % 2 = 1 then Nat.xor r.1 r.2 else r.1,
     if r.2 % 2 = 1 then Nat.xor (r.2 / 2) (0xE1 <<< 120) else r.2 / 2)) (0, y)).1

def padTo16 (b : List Byte) : List Byte := b ++ List.replicate ((16 - b.length % 16) % 16) 0

def ghash (h : Nat) (b : List Byte) : Nat :=
  (chunks 16 (b.length / 16) b).foldl (fun y blk => gcmMul (Nat.xor y (beNat blk)) h) 0

/-- AES-256 counter mode of GCM from block counter c. -/
def gcmCtr (key iv : List Byte) (c : Nat) (data : List Byte) : List Byte :=
  ((chunks 16 ((data.length + 15) / 16) data).zipIdx.flatMap (fun p =>
    xorBytes p.1 (aesEnc key (iv ++ beBytes 4 (c + p.2)))))

/-- The AES-256-GCM tag of ciphertext and additional data under a 96-bit nonce. -/
def gcmTag (key iv aad ct : List Byte) : List Byte :=
  let h := beNat (aesEnc key (List.replicate 16 0))
  let g := ghash h (padTo16 aad ++ padTo16 ct ++ beBytes 8 (8 * aad.length) ++ beBytes 8 (8 * ct.length))
  xorBytes (beBytes 16 g) (aesEnc key (iv ++ beBytes 4 1))

/-- AES-256-GCM encryption: ciphertext and tag. -/
def gcmSeal (key iv aad pt : List Byte) : List Byte × List Byte :=
  let ct := gcmCtr key iv 2 pt
  (ct, gcmTag key iv aad ct)

/-- AES-256-GCM decryption when the tag fits. -/
def gcmOpen (key iv aad ct tag : List Byte) : Option (List Byte) :=
  if (gcmTag key iv aad ct).take tag.length = tag then some (gcmCtr key iv 2 ct) else none

/-- One Philox round with its key (R141). -/
def philoxRound (c : Nat × Nat × Nat × Nat) (k0 k1 : Nat) : Nat × Nat × Nat × Nat :=
  let p0 := 0xD2511F53 * c.1
  let p1 := 0xCD9E8D57 * c.2.2.1
  (Nat.xor (Nat.xor (p1 >>> 32) c.2.1) k0, p1 % 2 ^ 32, Nat.xor (Nat.xor (p0 >>> 32) c.2.2.2) k1, p0 % 2 ^ 32)

/-- Philox-4×32 with 10 rounds: the four output words of a key and a counter (R141). -/
def philox (k0 k1 c0 c1 c2 c3 : Nat) : List Nat :=
  let r := (List.range 10).foldl (fun (st : (Nat × Nat × Nat × Nat) × Nat × Nat) _ =>
    (philoxRound st.1 st.2.1 st.2.2, (st.2.1 + 0x9E3779B9) % 2 ^ 32, (st.2.2 + 0xBB67AE85) % 2 ^ 32)) ((c0, c1, c2, c3), k0, k1)
  [r.1.1, r.1.2.1, r.1.2.2.1, r.1.2.2.2]

end Sys2Proof
end

