-- ==== Sys2Proof/Machine/Geometry.lean ====
section
/-! DEFINITION. Coordinates, node kinds, panels, clusters, hems, ports and the module address map (chapters 0, 1 and 7). -/

namespace Sys2Proof

/-- Node kinds of R19, with the KIND codes of MC_ID and R213. -/
inductive Kind where
  | m | v | f | l | c
  deriving DecidableEq, Repr

/-- Global x of a node index 64y + x (R412). -/
def nx (n : NodeId) : Nat := n % 64
/-- Global y of a node index. -/
def ny (n : NodeId) : Nat := n / 64
/-- The node at global (x, y). -/
def nodeAt (x y : Nat) : NodeId := 64 * y + x
/-- A node index names a node when x < 56 and y < 48 (R7). -/
def nodeExists (n : NodeId) : Bool := decide (nx n < 56) && decide (ny n < 48)
/-- Panel-local coordinates (R7). -/
def lx (n : NodeId) : Nat := nx n % 8
def ly (n : NodeId) : Nat := ny n % 8
/-- Panel number (R6). -/
def panelOf (n : NodeId) : Nat := (ny n / 8) * 7 + nx n / 8
/-- The node at panel-local (cx, cy) of a panel. -/
def panelNode (p cx cy : Nat) : NodeId := nodeAt (8 * (p % 7) + cx) (8 * (p / 7) + cy)
/-- Cluster 4 × panel + q (R9). -/
def clusterOf (n : NodeId) : Nat := 4 * panelOf n + lx n / 4 + 2 * (ly n / 4)

/-- Node kind by panel-local position (the table after R8). -/
def kindOf (n : NodeId) : Kind :=
  let p := (lx n, ly n)
  if [(2, 2), (5, 2), (2, 5), (5, 5)].contains p then .m
  else if [(3, 3), (4, 3), (3, 4), (4, 4), (0, 7), (7, 0)].contains p then .l
  else if [(1, 0), (6, 0), (0, 1), (7, 1), (0, 6), (7, 6), (1, 7), (6, 7)].contains p then .f
  else if [(0, 0), (7, 7)].contains p then .c
  else .v

/-- KIND code (R213, MC_ID); a C node has 0x05 (the spec gives it no code; not read by any rule). -/
def Kind.code : Kind → Nat
  | .m => 1 | .v => 2 | .f => 3 | .l => 4 | .c => 5

/-- L node positions in local order (R21). -/
def lLocal : List (Nat × Nat) := [(3, 3), (4, 3), (3, 4), (4, 4), (0, 7), (7, 0)]
/-- L node index of a node (R21); 252 for a node that is not an L node. -/
def lIndex (n : NodeId) : Nat :=
  match lLocal.findIdx? (fun p => p == (lx n, ly n)) with
  | some k => 6 * panelOf n + k
  | none => 252
/-- The L node of an index (R21). -/
def lNode (i : Nat) : NodeId :=
  let p := nth (0, 0) lLocal (i % 6)
  panelNode (i / 6) p.1 p.2
where nth (d : Nat × Nat) (l : List (Nat × Nat)) (i : Nat) : Nat × Nat := l.getD i d

/-- The module steward and the standby (R22). -/
def stewardNode : NodeId := nodeAt 24 0
def standbyNode : NodeId := nodeAt 31 47
/-- A panel's two wardens (R22). -/
def wardens (p : Nat) : List NodeId := [panelNode p 0 0, panelNode p 7 7]

/-- All nodes of a panel in ascending index. -/
def panelNodes (p : Nat) : List NodeId :=
  (List.range 8).flatMap (fun cy => (List.range 8).map (fun cx => panelNode p cx cy))
/-- All nodes of cluster c (R9). -/
def clusterNodes (c : Nat) : List NodeId := (panelNodes (c / 4)).filter (fun n => clusterOf n == c)
/-- All 2,688 nodes, by row. -/
def allNodes : List NodeId := (List.range 48).flatMap (fun y => (List.range 56).map (fun x => nodeAt x y))

/-- Router ports: 0 north, 1 east, 2 south, 3 west, 4 local (R352). -/
abbrev portN : Nat := 0
abbrev portE : Nat := 1
abbrev portS : Nat := 2
abbrev portW : Nat := 3
abbrev portLocal : Nat := 4
/-- The port at the other end of a mesh link. -/
def oppPort (p : Nat) : Nat :=
  match p with
  | 0 => 2 | 1 => 3 | 2 => 0 | 3 => 1 | p => p

/-- The neighbour through a port, if a router stands there (R352). -/
def neighbour (r : NodeId) (port : Nat) : Option NodeId :=
  match port with
  | 0 => if ny r < 47 then some (nodeAt (nx r) (ny r + 1)) else none
  | 1 => if nx r < 55 then some (nodeAt (nx r + 1) (ny r)) else none
  | 2 => if 0 < ny r then some (nodeAt (nx r) (ny r - 1)) else none
  | 3 => if 0 < nx r then some (nodeAt (nx r - 1) (ny r)) else none
  | _ => none

/-- Kinds of hem (R24). -/
inductive HemKind where
  | bolt | spakan | host | blank
  deriving DecidableEq, Repr

/-- Hem positions are numbered as in R263: S 0–6, N 7–13, W 14–19, E 20–25. -/
def hemKind (h : Nat) : HemKind :=
  if h = 3 ∨ h = 10 then .host
  else if [2, 4, 9, 11, 16, 22].contains h then .spakan
  else if [17, 23].contains h then .blank
  else .bolt

/-- The hem and its port that a boundary port faces (R23). -/
def hemAt (r : NodeId) (port : Nat) : Option (Nat × Nat) :=
  if port = portS ∧ ny r = 0 then some (nx r / 8, nx r % 8)
  else if port = portN ∧ ny r = 47 then some (7 + nx r / 8, nx r % 8)
  else if port = portW ∧ nx r = 0 then some (14 + ny r / 8, ny r % 8)
  else if port = portE ∧ nx r = 55 then some (20 + ny r / 8, ny r % 8)
  else none

/-- The router and port of a hem's port k (R23). -/
def hemRouter (h k : Nat) : NodeId × Nat :=
  if h < 7 then (nodeAt (8 * h + k) 0, portS)
  else if h < 14 then (nodeAt (8 * (h - 7) + k) 47, portN)
  else if h < 20 then (nodeAt 0 (8 * (h - 14) + k), portW)
  else (nodeAt 55 (8 * (h - 20) + k), portE)

/-- Spakan hems in port order (R26). -/
def spakanHems : List Nat := [2, 4, 9, 11, 16, 22]
/-- The Spakan hem position and port of Spakan port n (R26). -/
def spakanHem (n : Nat) : Nat × Nat := (spakanHems.getD (n / 8) 2, n % 8)
/-- The eight twin ports (R26, R604). -/
def twinPorts : List Nat := [0, 1, 8, 9, 16, 17, 24, 25]
/-- Bolt hems in package order (R27). -/
def boltHems : List Nat := [0, 1, 5, 6, 7, 8, 12, 13, 14, 15, 18, 19, 20, 21, 24, 25]
/-- The hem and port of Bolt package p (R27). -/
def boltHem (p : Nat) : Nat × Nat := (boltHems.getD (p / 8) 0, p % 8)

/-- What a module physical address names (R259). -/
inductive Region where
  /-- L node index and node-local offset (R260). -/
  | lining (l : Nat) (off : Nat)
  /-- Bolt package and offset within it (R261). -/
  | bolt (p : Nat) (off : Nat)
  /-- A node window and the offset in it (R262). -/
  | window (n : NodeId) (off : Nat)
  /-- A hem window (R263). -/
  | hem (h : Nat) (off : Nat)
  | none
  deriving DecidableEq, Repr

/-- The module address map (R259). The hem windows end where R263 and '26 windows of 256 MiB' put their end, not at the End column's 0xF100_19FF_FFFF (log 3). -/
def regionOf (a : Nat) : Region :=
  if a < 0x01F800000000 then .lining (a / 0x200000000) (a % 0x200000000)
  else if a < 0x020000000000 then .none
  else if a < 0x0A0000000000 then .bolt ((a - 0x020000000000) / 0x1000000000) ((a - 0x020000000000) % 0x1000000000)
  else if a < 0xF00000000000 then .none
  else if a < 0xF0C000000000 then
    let i := (a - 0xF00000000000) / 0x10000000
    if nodeExists i then .window i (a % 0x10000000) else .none
  else if a < 0xF10000000000 then .none
  else if a < 0xF101A0000000 then .hem ((a - 0xF10000000000) / 0x10000000) (a % 0x10000000)
  else .none

/-- Scratchpad bytes of a node by kind (R152). -/
def padBytes (n : NodeId) : Nat :=
  match kindOf n with
  | .m => 0x3000000
  | .v => 0x600000
  | .f => 0x100000
  | .l => 0x800000
  | .c => 0x200000

/-- Window offset of M pad k: 0 W-pad, 1 A-pad, 2 P-pad (R262). -/
def mPadBase (k : Nat) : Nat := match k with | 0 => 0 | 1 => 0x1800000 | _ => 0x2800000
/-- Bytes of M pad k (R66). -/
def mPadBytes (k : Nat) : Nat := match k with | 0 => 0x1800000 | 1 => 0x1000000 | 2 => 0x800000 | _ => 0

/-- Where a pad of a node starts in its window and how long it is; pads 1 and 2 exist only in M cores (R176). -/
def padRange (n : NodeId) (pad : Nat) : Nat × Nat :=
  if kindOf n = .m then (mPadBase pad, mPadBytes pad) else (0, if pad = 0 then padBytes n else 0)

end Sys2Proof
end

