-- ==== Sys2Proof/Machine/FabricState.lean ====
section
/-! DEFINITION. What one router holds (chapter 10): link states, the link layer of each port, budgets, the detour table and counters.
Each field names the rule that gives it and its value at reset. -/

namespace Sys2Proof.Machine
open Sys2Proof

/-- A flit kept for retransmission (R358). -/
structure SentFlit where
  fseq : Nat
  pid : Nat
  vc : Nat
  /-- Transmissions refused in a row (R360). -/
  refused : Nat
  deriving DecidableEq, Repr

/-- A budget class of an output port (R379). -/
structure Budget where
  rate : Nat := 0
  cap : Nat := 0
  hard : Bool := false
  tokens : Nat := 0
  deriving DecidableEq, Repr

/-- One port of a router. -/
structure Port where
  /-- RT_LINK [3:2]: 0 DOWN, 1 UP, 2 TERMINATED or absent, 3 untrained (R397). Reset: 0. -/
  state : Nat := 0
  /-- The link is HELD down until a power cycle or a retest (R407). Reset: false. -/
  linkHeld : Bool := false
  /-- Control-cycle times at which the link went down, for R407. Reset: none. -/
  downs : List Nat := []
  /-- Next FSEQ to send (R356). Reset: 0 (DESIGN CHOICE log 2). -/
  txSeq : Nat := 0
  /-- Replay buffer, oldest first (R358). Reset: empty. -/
  replay : List SentFlit := []
  /-- FSEQ expected (R359). Reset: 0 (DESIGN CHOICE log 2). -/
  rxSeq : Nat := 0
  /-- A NAK has been sent and its retransmission not yet seen (R359). Reset: false. -/
  nakked : Bool := false
  /-- The packet whose header has come and whose last flit has not (R391), by virtual channel. Reset: none. -/
  openPkt : Table Nat := []
  /-- Flits in the input buffer, by virtual channel (R354). Reset: 0. -/
  fill : Table Nat := []
  /-- Flits of room the receiver has not returned, by virtual channel (R357). Reset: 0. -/
  used : Table Nat := []
  /-- NULL flits sent to keep the link (R357). Reset: 0 (the model's own count). -/
  nulls : Nat := 0
  /-- CRC_ERRORS (R395). Reset: 0. -/
  crcErrors : U32 := 0
  /-- RETRIES (R395). Reset: 0. -/
  retries : U32 := 0
  /-- RT_BUDGET by class (R379). Reset: 0. -/
  budgets : Table Budget := []
  /-- RT_CONG: level of each virtual channel (R393). Reset: 0. -/
  cong : Table Nat := []
  /-- FLITS_v, STALL_v, MAXDEPTH and PACKETS of a boundary router's port block (R395, R397). Reset: 0. -/
  flits : Table U64 := []
  stalls : Table U64 := []
  maxDepth : Table Nat := []
  packets : U64 := 0
  deriving DecidableEq, Repr

/-- A router. -/
structure Router where
  /-- Ports 0–4 (R352, R397). Reset: PORT4 UP, the others DOWN. -/
  ports : Table Port := [(4, { state := 1 })]
  /-- Fenced or dead (R420). Reset: false. -/
  dead : Bool := false
  /-- RT_WINDOW (R393). Reset: 1,048,576. -/
  window : Nat := 1048576
  /-- RT_MAP: class of (OWNER, TCLASS), key 16 × OWNER + TCLASS (R379). Reset: 0. -/
  map : Table Nat := []
  /-- Detour entries 0–63 (R370). Reset: 0. -/
  detour : Table U64 := []
  /-- HOST_PORT_MAP (R541, R674). Reset: the identity map, port k for k in both halves (R674). -/
  hostMap : U64 := 0x00FAC68800FAC688
  /-- BAD_PACKETS (R362). Reset: 0. -/
  badPackets : U32 := 0
  /-- FENCED_ABSORBED (R390). Reset: 0. -/
  fencedAbsorbed : U32 := 0
  /-- NACKS_SENT (R395). Reset: 0. -/
  nacksSent : U32 := 0
  /-- LINKDOWN_DISCARDS (R392). Reset: 0. -/
  linkdownDiscards : U32 := 0
  /-- ABORTED_PACKETS (R391). Reset: 0. -/
  abortedPackets : U32 := 0
  /-- CTRL_OVER, by router (R380, R395). Reset: 0. -/
  ctrlOver : U32 := 0
  /-- Control flits sent in this budget window by port (R380). Reset: 0. -/
  ctrlSent : Table Nat := []
  deriving DecidableEq, Repr

end Sys2Proof.Machine
end

