-- ==== Sys2Proof/Machine/NodeState.lean ====
section
/-! DEFINITION. What one mesh node holds: scratchpads, endpoints, pattern slots, and its V, F, M or L core (chapters 3 to 7).
Each field names the rule that gives it and its value at reset. -/

namespace Sys2Proof.Machine
open Sys2Proof

/-- A record held in an input endpoint's ring, or an entry of its notification queue (R183, R191). -/
structure ChanRec where
  /-- The stored header (R180, R186). -/
  hdr : U128
  /-- Payload address in the node's scratchpad; for a skip marker or a token, the address after the header granule (R195). -/
  addr : Nat
  /-- Ring bytes the record occupies: s of R179, or a skip marker's tail (R187); 0 in window mode. -/
  size : Nat
  /-- Slots a notified window deposit touched (R191). -/
  slots : List Nat
  deriving DecidableEq, Repr

/-- A record in a let-out ring (R248): its header, where its header granule lies in the ring, the ring bytes it gives back when read, a
skipped tail before it included, and the key epoch it was written under. -/
structure LetRec where
  hdr : U128
  at' : Nat
  take : Nat
  epoch : Nat
  deriving DecidableEq, Repr

/-- An endpoint of either direction (R174, R183, R209, R236). -/
structure Ep where
  /-- The armed descriptor: R176 for an input, R177 for an output; MODE 0 is disabled. R176, R177. Reset: 0. -/
  desc : U128 := 0
  /-- The descriptor of the loaded next configuration, when only that enables the endpoint (R239, R673). Reset: false. -/
  nextOnly : Bool := false
  /-- BROKEN of EP_STATE (R198, R209). Reset: 0. -/
  broken : Bool := false
  /-- LETOUT_ACTIVE of EP_STATE (R248). Reset: 0. -/
  letout : Bool := false
  /-- BLOCKED of EP_STATE (R209). Reset: 0. -/
  blocked : Bool := false
  /-- PTR, in bytes: output write offset w, input read offset (R183, R209). Reset: 0. -/
  ptr : Nat := 0
  /-- CREDIT: ring output credit in bytes, window output entry credits, input unreturned credit in bytes (R188, R209). Reset: 0. -/
  credit : Nat := 0
  /-- SEQ: next to send or next expected (R181). Reset: 0. -/
  seq : U16 := 0
  /-- EP_MSGS (R197). Reset: 0. -/
  msgs : U64 := 0
  /-- EP_BYTES (R197). Reset: 0. -/
  bytes : U64 := 0
  /-- EP_STALL (R197). Reset: 0. -/
  stall : U64 := 0
  /-- EP_TOKENS (R197). Reset: 0. -/
  tokens : U32 := 0
  /-- EP_SKIPS (R197). Reset: 0. -/
  skips : U32 := 0
  /-- EP_LETOUT (R197). Reset: 0. -/
  letouts : U32 := 0
  /-- Input: unreleased records in SEQ order (R186, R192). Reset: none. -/
  recs : List ChanRec := []
  /-- Input: how many leading records a RECV has returned (R195). Reset: 0. -/
  returned : Nat := 0
  /-- Input: next deposit offset in the ring (R184, as the sender's w arrives). Reset: 0. -/
  wptr : Nat := 0
  /-- Input: the way its credits go, taken from the first record after arm: WAY_EN, WAY_X, WAY_Y (R371). Reset: none. -/
  creditWay : Option (Bool × Nat × Nat) := none
  /-- Output: records in the let-out ring, oldest first (R248). Reset: none. -/
  loQ : List LetRec := []
  /-- Output: let-out ring write offset (R248 by the rule of R184, R185). Reset: 0. -/
  loW : Nat := 0
  /-- Output: let-out ring bytes in use, skipped tails included (R248). Reset: 0. -/
  loUsed : Nat := 0
  /-- Offset and SEQ recorded at each uncommitted MARK: (step, offset, SEQ) (R236). Reset: none. -/
  marks : List (Nat × Nat × Nat) := []
  /-- Offset and SEQ of the last committed step (R236). Reset: 0, 0. -/
  committed : Nat × Nat := (0, 0)
  /-- Output of a tap: the bytes R330 hashes for this step. Reset: none. -/
  tap : List Byte := []
  /-- Counts at the last MARK, for per-step reports (R254): (EP_MSGS). Reset: 0. -/
  msgsAtMark : U64 := 0
  deriving DecidableEq, Repr

/-- The tag store's record of one block of W-pad or A-pad (R68, R678). -/
structure BlockTag where
  scales : List Byte
  flags : Byte
  summary : Byte
  deriving DecidableEq, Repr

/-- A node's scratchpad with its line, owner and fill tags (chapter 5). Addresses are offsets in the node window (R262). -/
structure Pad where
  /-- Stored bytes (R153). Reset: all zero (DESIGN CHOICE log 2; the lines are invalid, so they read as zeros by R164). -/
  bytes : Memory := []
  /-- Lines whose valid bit is set, by address / 64 (R164). Reset: none. -/
  valid : List Nat := []
  /-- Words whose stored parity no longer fits, by address / 4 (R159, R160). Reset: none. -/
  bad : List Nat := []
  /-- OWNER_b raw (R163, R208). Reset: 0. -/
  owners : Table U64 := []
  /-- TAGGED, one bit a slot in the numbering of FILL_TAGS (R168). Reset: 0. -/
  tagged : BitVec 12288 := 0
  /-- FILLED (R168). Reset: 0. -/
  filled : BitVec 12288 := 0
  /-- The tag store, by W-pad unit, or 49152 + A-pad unit (R68). An unlisted block is unwritten (R678). Reset: none. -/
  blocks : Table BlockTag := []
  /-- PAD_CTRL.CHECKED (R208). Reset: 1. -/
  checked : Bool := true
  /-- PAD_PARITY_LOC (R208). Reset: 0. -/
  parityLoc : U64 := 0
  /-- PARITY_ERRORS (R160). Reset: 0. -/
  parityErrors : U32 := 0
  /-- ROWS_RETIRED (R161). Reset: 0. -/
  rowsRetired : U32 := 0
  /-- NARROW_FORCED (R156). Reset: 0. -/
  narrowForced : U64 := 0
  /-- RBF_UNCHECKED (R172). Reset: 0. -/
  rbfUnchecked : U32 := 0
  /-- OBD_UNCHECKED (R172). Reset: 0. -/
  obdUnchecked : U32 := 0
  /-- OWNER_REFUSED (R166). Reset: 0. -/
  ownerRefused : U32 := 0
  /-- RECVANY_COUNT (R196). Reset: 0. -/
  recvanyCount : U32 := 0
  /-- KNOT_RETRIES (R203). Reset: 0. -/
  knotRetries : U32 := 0
  /-- FILL_FAULT_LOC (R208). Reset: 0. -/
  fillFaultLoc : U64 := 0
  /-- Retired rows: (owner bank, physical row) in order of retirement (R161). Reset: none. -/
  retired : List (Nat × Nat) := []
  /-- Spare rows found bad by bring-up: (owner bank, how many) (R162, R481). Reset: none. -/
  badSpares : Table Nat := []
  deriving DecidableEq, Repr

/-- STATE of PAT_STATE (R258). -/
inductive PatPhase where
  | unloaded | loaded | armed | inStep | waitCommit | stopped | scanning
  deriving DecidableEq, Repr

/-- A node's pattern slots and step registers (chapter 6). -/
structure Pat where
  /-- Raw 64 KiB slot images by slot (R213). Reset: zero (DESIGN CHOICE log 2; no slot is valid). -/
  slots : Table Memory := []
  /-- SLOT_VALID of PAT_STATE (R258). Reset: 0x0. -/
  loaded : List Nat := []
  /-- HOME (R258). Reset: 0. -/
  home : Nat := 0
  /-- ACTIVE (R258). Reset: 0. -/
  active : Nat := 0
  /-- CTAG (R258). Reset: 0. -/
  ctag : Nat := 0
  /-- NEXT_CTAG (R258). Reset: 0. -/
  nextCtag : Nat := 0
  /-- NEXT_VALID (R258). Reset: 0. -/
  nextValid : Bool := false
  /-- SEAM_ORDER (R241, R258). Reset: 0. -/
  seamOrder : Bool := false
  /-- REPLAY_PENDING (R258). Reset: 0. -/
  replayPending : Bool := false
  /-- STATE of PAT_STATE (R258). Reset: unloaded. -/
  phase : PatPhase := .unloaded
  /-- COMMITTED of STEP_NUM (R258). Reset: 0xFFFF_FFFF. -/
  committed : U32 := 0xFFFFFFFF
  /-- CURRENT of STEP_NUM (R258). Reset: 0. -/
  current : U32 := 0
  /-- STEP_WORK (R231, R253). Reset: 0. -/
  stepWork : U64 := 0
  /-- STEP_INSTR (R231). Reset: 0. -/
  stepInstr : U64 := 0
  /-- The running step's work, latched by R231. Reset: 0. -/
  runWork : U64 := 0
  /-- The running step's instructions. Reset: 0. -/
  runInstr : U64 := 0
  /-- RATE_0 to RATE_15 (R228). Reset: 0. -/
  rates : Table U32 := []
  /-- The running step's rate points (R228). Reset: 0. -/
  runRates : Table U32 := []
  /-- REPLAYS (R235). Reset: 0. -/
  replays : U32 := 0
  /-- SEAM_DISCARDS (R243). Reset: 0. -/
  seamDiscards : U32 := 0
  /-- COMMIT_WAIT (R232). Reset: 0. -/
  commitWait : U64 := 0
  /-- SLOT_SWITCHES (R220). Reset: 0. -/
  slotSwitches : U32 := 0
  /-- SEAM_WAIT (R242). Reset: 0. -/
  seamWait : U64 := 0
  /-- SEALED_0 to SEALED_3 (R242). Reset: 0. -/
  sealed : BitVec 256 := 0
  /-- An event of this step forbids its commit (R230). Reset: false. -/
  veto : Bool := false
  /-- STOP hold in force (R404). Reset: false. -/
  held : Bool := false
  /-- RECVANY_COUNT, RBF_UNCHECKED and OBD_UNCHECKED at the last MARK or arm (R322). Reset: 0. -/
  timingAt : Nat × Nat × Nat := (0, 0, 0)
  /-- Taps of the image's static report on this node: output endpoints (R330). Reset: none. -/
  taps : List Nat := []
  /-- Stochastic-rounding key of each loaded pattern, by slot (R58, R142). Reset: 0 (DESIGN CHOICE log 2). -/
  srKeys : Table U64 := []
  deriving DecidableEq, Repr

/-- What a V or F core's issue is blocked on (R193 to R196, R205, R229). -/
inductive Blocked where
  /-- A SEND or SENDTOK waiting for credit: the header and payload it will send (R184, R193). -/
  | send (ep : Nat) (hdr : U128) (data : List Byte) (notify : Bool)
  /-- A RECV waiting for a record; D and B registers (R195). -/
  | recv (ep : Nat) (d b : Nat)
  /-- A RECVANY; the mask and D, B, C registers and HOLD (R196). -/
  | recvAny (mask : Nat) (d b c : Nat) (hold : Bool)
  /-- A KNT WAIT until its reply (R205). -/
  | knotWait (ticket : Nat)
  /-- A ninth posted knot operation (R205). -/
  | knotPost (op knot value : Nat)
  /-- A MARK that has issued and not completed (R229). -/
  | mark
  deriving DecidableEq, Repr

/-- A V or F core (R111, R151). -/
structure Core where
  /-- Tile registers t0–t15 (R111). Reset: 0 (DESIGN CHOICE log 2; R231 zeroes them at arm). -/
  tiles : Table Tile := []
  /-- Scalar registers s0–s31 (R111). Reset: 0 (DESIGN CHOICE log 2). -/
  scalars : Table U64 := []
  /-- Predicate tiles p0–p7 (R111). Reset: 0 (DESIGN CHOICE log 2). -/
  preds : Table Pred := []
  /-- Loop counters c0–c15 (R111). Reset: 0 (DESIGN CHOICE log 2). -/
  counters : Table U32 := []
  /-- Hidden reload values (R223). Reset: 0 (DESIGN CHOICE log 2). -/
  reloads : Table U32 := []
  /-- Program index; PC of VC_STATUS (R111, R151). Reset: 0x0000. -/
  pc : U16 := 0
  /-- VC_CTRL.SEQ_RUN (R151). Reset: 0. -/
  run : Bool := false
  /-- What issue is blocked on; VC_STATUS.STATE 2, 3 (R151). Reset: none. -/
  blocked : Option Blocked := none
  /-- Posted knot operations awaiting reply, by ticket (R205). Reset: none. -/
  posted : List Nat := []
  /-- The next knot ticket (R204 TICKET, 8 bits). Reset: 0 (DESIGN CHOICE log 2). -/
  ticket : Nat := 0
  /-- A WAIT answered RETRY, kept for its resend: (identifier, value, ticket) (R203). Reset: none. -/
  retry : Option (Nat × Nat × Nat) := none
  /-- SAT_EVENTS (R121). Reset: 0. -/
  satEvents : U32 := 0
  /-- RESIDUE_MISMATCH (R128). Reset: 0. -/
  residue : U32 := 0
  /-- FN_COMPARE_MISMATCH (R147). Reset: 0. -/
  fnCompare : U32 := 0
  /-- FN_RANGE (R133). Reset: 0. -/
  fnRange : U32 := 0
  /-- SAMPLE_KCLAMP (R145). Reset: 0. -/
  kclamp : U32 := 0
  /-- SAMPLE_DEGEN (R145). Reset: 0. -/
  degen : U32 := 0
  /-- ISSUE_CYCLES (R253). Reset: 0. -/
  issueCycles : U64 := 0
  /-- INSTR_RETIRED (R151). Reset: 0. -/
  retired : U64 := 0
  /-- F core: the tenant seed's key register; reads as zero (R142). Reset: 0 (DESIGN CHOICE log 2). -/
  seed : U64 := 0
  /-- The warden has this core's patrol due at its next MARK (R409). Reset: false. -/
  patrolDue : Bool := false
  deriving DecidableEq, Repr

/-- One accumulator with its special state (R44, R49): 0 finite, 1 +∞, 2 −∞, 3 NaN. -/
structure Acc where
  v : Int
  sp : Nat
  deriving DecidableEq, Repr

/-- Operand reads of one PASS: what R75 names, after loop increments and REUSE (R84, R227). -/
structure PassOp where
  g : Nat
  kblk : Nat
  wsrc : Nat
  wt : Bool
  asrc : Nat
  at' : Bool
  waddr : Int
  aaddr : Int
  wpitch : Nat
  apitch : Nat
  reuse : Bool
  /-- Its place among the step's PASS commands in program order (R84). -/
  seq : Nat
  deriving DecidableEq, Repr

/-- Loop table state of one entry (R226, R227): the iteration index, iterations left, and whether the body is entered. -/
structure LoopSt where
  active : Bool := false
  iter : Nat := 0
  count : Nat := 0
  deriving DecidableEq, Repr

/-- An accumulate group (R41, R74, R78 to R80). -/
structure Group where
  isOpen : Bool := false
  passes : Nat := 0
  amode : Bool := false
  /-- The anchor once fixed (R42, R43). -/
  anchor : Option Int := none
  fmtA : Nat := 0
  fmtB : Nat := 0
  backward : Bool := false
  mrows : Nat := 0
  ncols : Nat := 0
  pbase : Nat := 0
  /-- A DRAIN of the group has been fetched and has not issued. -/
  draining : Bool := false
  /-- Where the pass scanner starts: slot, command index and loop state after the GROUP (R676). -/
  scanSlot : Nat := 0
  scanAt : Nat := 0
  scanLoops : Table LoopSt := []
  /-- Loop tokens taken since the GROUP, (endpoint, TOKVAL), which the scanner has yet to pass (R676). -/
  tokSeen : List (Nat × Nat) := []
  /-- PASS numbering at the GROUP (R84). -/
  scanSeq : Nat := 0
  /-- The PASS before the GROUP in program order (R84). -/
  scanLast : Option PassOp := none
  /-- PASS commands received (R80), issued and completed. -/
  received : Nat := 0
  issued : Nat := 0
  completed : Nat := 0
  /-- Passes the scanner has found, in program order, once it is done (R676). -/
  scanned : Option (List PassOp) := none
  /-- Accumulator plane holding the group, if any (R61, R79). -/
  plane : Option Nat := none
  /-- The partial is at its P-pad home (R79). -/
  spilled : Bool := false
  /-- Special states of a spilled partial (R49). -/
  pspecial : List Nat := []
  /-- The accumulators, row-major Mt × N, while a plane holds the group. -/
  acc : List Acc := []
  deriving DecidableEq, Repr

/-- A command of the sequencer's window (R71). -/
structure WinCmd where
  /-- Command index in the program (SEQ_INDEX, R110). -/
  idx : Nat
  /-- The command's 128 bits with address increments applied where R227 says so. -/
  word : U128
  /-- PASS operands after loop increments and REUSE. -/
  pass : Option PassOp
  /-- DADDR of a DRAIN after loop increments, and its cuff program, if its slot was loaded when it was fetched (R92). -/
  daddr : Int
  cuff : Option (List Byte)
  /-- Issued to the array or the drain pipeline, and completed. -/
  issued : Bool
  done : Bool
  deriving DecidableEq, Repr

/-- A pass in the array, from issue to its last row's landing (R97): the terms it adds and what its checks saw. -/
structure Flight where
  idx : Nat
  seq : Nat
  kblk : Nat
  g : Nat
  ord : Nat
  /-- Term sums and special states per output element, row-major. -/
  sums : List Acc
  /-- Truncated products per row and per column (R100). -/
  truncRow : List Nat
  truncCol : List Nat
  /-- Rows and columns holding a clamped product (R101). -/
  clampRow : List Nat
  clampCol : List Nat
  truncs : Nat
  clamps : Nat
  /-- What truncation dropped from each row's and each column's terms, in units of 2^(a−85−1024): L_i and L'_n of R99 less the sums. -/
  lrow : List Nat
  lcol : List Nat
  rows : Nat
  interval : Nat
  deriving DecidableEq, Repr

/-- A drained tile between the drain pipeline and the end of its release (R85, R94 to R96, R343). -/
structure Drained where
  idx : Nat
  g : Nat
  dest : Nat
  chan : Nat
  /-- Format code, and whether its blocks are square (R93, R338). -/
  fmt : Nat
  square : Bool
  ncols : Nat
  /-- Destination units of DEST 1 to 3, by block. -/
  units : List Nat
  /-- Blocks in block-row order: element bytes and scale bytes. -/
  blocks : List (List Byte × List Byte)
  /-- Mask messages by band: endpoint and payload (R341 to R343). -/
  masks : List (Nat × List Byte)
  /-- A-pad masks to write: unit and bytes (R92 KEEP). -/
  keeps : List (Nat × List Byte)
  /-- Its rows wait for room in the finished-tile queue (R96). -/
  waiting : Bool
  /-- Messages still to be sent once the tile is released (R95): endpoint, payload, whether it is a block. -/
  outbox : List (Nat × List Byte × Bool)
  released : Bool
  deriving DecidableEq, Repr

/-- An M core (chapter 3). -/
structure MCore where
  /-- MC_CTRL.SEQ_RUN (R110). Reset: 0. -/
  run : Bool := false
  /-- MC_CTRL.SWEEP_EN (R110). Reset: 1. -/
  sweepEn : Bool := true
  /-- MC_CTRL.PRIO (R110). Reset: 0. -/
  prio : Nat := 0
  /-- The command window, oldest first, at most 16 (R71). Reset: empty. -/
  window : List WinCmd := []
  /-- Index of the next command to be fetched (R227). Reset: 0 (DESIGN CHOICE log 2). -/
  fetch : Nat := 0
  /-- Loop table state by entry (R227). Reset: inactive. -/
  loops : Table LoopSt := []
  /-- A loop waits for a token to give its count: its entry (R227). Reset: none. -/
  loopWait : Option Nat := none
  /-- Groups 0–3 (R74). Reset: closed. -/
  groups : Table Group := []
  /-- PLANE0_GROUP and PLANE1_GROUP with their BUSY bits (R110). Reset: none. -/
  planes : Table Nat := []
  /-- WSHADOW_VALID (R110). Reset: 0. -/
  shadow : Bool := false
  /-- The stationary tile of the preceding PASS in program order (R84). Reset: none. -/
  lastPass : Option PassOp := none
  /-- PASS commands fetched this step (R84). Reset: 0. -/
  passSeq : Nat := 0
  /-- Passes in flight, oldest first (R82). Reset: none. -/
  flights : List Flight := []
  /-- Drained tiles not yet released, oldest first (R94). Reset: none. -/
  drains : List Drained := []
  /-- FTQ_USED: block buffers in use (R94, R110). Reset: 0. -/
  ftqUsed : Nat := 0
  /-- Mask buffers in use (R94). Reset: 0. -/
  maskUsed : Nat := 0
  /-- Cuff program slots 1–15 loaded this step: 64 bytes each (R92). Reset: empty. -/
  cuffs : Table (List Byte) := []
  /-- MC_ROWREP0/1: logical row served by spare k (R110). Reset: none. -/
  rowRep : Table Nat := []
  /-- MC_COLREP0/1 (R110). Reset: none. -/
  colRep : Table Nat := []
  /-- Physical rows and columns retired, spares included (R106, R107). Reset: none. -/
  badRows : List Nat := []
  badCols : List Nat := []
  /-- MC_SWEEP k and j (R104). Reset: 0 (DESIGN CHOICE log 2). -/
  sweepK : Nat := 0
  sweepJ : Nat := 0
  /-- PROD_TRUNC (R45). Reset: 0. -/
  prodTrunc : U32 := 0
  /-- ANCHOR_CLAMP (R43). Reset: 0. -/
  anchorClamp : U32 := 0
  /-- PPAD_TRUNC (R46). Reset: 0. -/
  ppadTrunc : U32 := 0
  /-- DRAIN_OVF (R53). Reset: 0. -/
  drainOvf : U32 := 0
  /-- DRAIN_NAN (R53). Reset: 0. -/
  drainNan : U32 := 0
  /-- CK_MISMATCH (R102). Reset: 0. -/
  ckMismatch : U32 := 0
  /-- CK_BOUNDED (R100). Reset: 0. -/
  ckBounded : U32 := 0
  /-- CK_UNCHECKED (R101). Reset: 0. -/
  ckUnchecked : U32 := 0
  /-- SWEEP_MISMATCH (R104). Reset: 0. -/
  sweepMismatch : U32 := 0
  /-- PRELOAD_CYCLES (R89). Reset: 0. -/
  preload : U64 := 0
  /-- STREAM_CYCLES (R89). Reset: 0. -/
  stream : U64 := 0
  /-- DRAIN_CYCLES (R89). Reset: 0. -/
  drainCycles : U64 := 0
  /-- STALL_OPERAND (R79). Reset: 0. -/
  stallOperand : U32 := 0
  /-- STALL_FTQ (R96). Reset: 0. -/
  stallFtq : U32 := 0
  /-- TILES_RELEASED (R110). Reset: 0. -/
  tilesReleased : U32 := 0
  /-- PSPILL_CYCLES (R79). Reset: 0. -/
  pspill : U64 := 0
  /-- The array diagnostic is due at the next step boundary (R105), with what the failure implicated: rows, columns. Reset: none. -/
  diagDue : Option (Bool × Bool) := none
  deriving DecidableEq, Repr

/-- A knot (R200, R201, R316). -/
structure Knot where
  alloc : Bool := false
  sat : Bool := false
  part : Nat := 0
  count : U32 := 0
  deriving DecidableEq, Repr

/-- A waiting WAIT (R202): the knot slot, v, and the request's route header and payload, which its reply answers. -/
structure KnotWait where
  slot : Nat
  v : Nat
  route : U128
  pay : U128
  deriving DecidableEq, Repr

/-- A bobbin table entry (R292). STATE: 0 FREE, 1 OPEN, 2 CLOSING, 3 LOST, 4 MOVING. -/
structure Bobbin where
  state : Nat := 0
  part : Nat := 0
  flags : Byte := 0
  tpp : Nat := 0
  planes : Nat := 0
  keyEpoch : Nat := 0
  session : U32 := 0
  length : Nat := 0
  end0 : Nat := 0
  end1 : Nat := 0
  /-- 4 KiB unit of the page list. -/
  list : Nat := 0
  listCap : Nat := 0
  linPages : Nat := 0
  boltPages : Nat := 0
  aux : Nat := 0
  auxLen : Nat := 0
  lastStep : Nat := 0
  deriving DecidableEq, Repr

/-- A page moving between the tiers (R304, R307): bobbin entry and page-list index. -/
structure PageMove where
  entry : Nat
  page : Nat
  /-- The stream prefetcher 1–32 that ordered it (R303); 0 for a request's own page, 33 for a host order. -/
  pf : Nat
  deriving DecidableEq, Repr

/-- A narrow page sealed at a step (R310). -/
structure SealedPage where
  entry : Nat
  page : Nat
  step : Nat
  /-- The extra frame (R310): the narrowed values, which reads of steps s + 2 and later take, until step s + 1 commits. -/
  frame : Nat
  deriving DecidableEq, Repr

/-- A 4 KiB line of Lining-as-cache (R312): its set, the partition Bolt page it caches, whether it is dirty, and its plaintext. -/
structure CacheLine where
  part : Nat
  set : Nat
  page : Nat
  dirty : Bool
  poison : Bool
  data : List Byte
  deriving DecidableEq, Repr

/-- A record that an L node has yet to send on a data output, in service order (R301, R278). -/
structure OutMsg where
  /-- Service input whose request it answers. -/
  src : Nat
  ep : Nat
  token : Nat
  tokval : Nat
  poison : Bool
  data : List Byte
  deriving DecidableEq, Repr

/-- An L node's services (chapter 7). -/
structure LNode where
  /-- Bobbin table entries (R292). Reset: FREE. -/
  bobbins : Table Bobbin := []
  /-- Knots 0–255 (R199). Reset: unallocated, 0. -/
  knots : Table Knot := []
  /-- Waiting WAITs in arrival order, at most 1,024 (R203). Reset: none. -/
  waits : List KnotWait := []
  /-- LN_FRAMEPOOL: first frame, count (R294, R316). Reset: 0 (DESIGN CHOICE log 2). -/
  frameFirst : Nat := 0
  frameCount : Nat := 0
  /-- LN_BOLTPOOL: first 4 KiB unit, count (R294, R316). Reset: 0 (DESIGN CHOICE log 2). -/
  boltFirst : Nat := 0
  boltCount : Nat := 0
  /-- Frames in use or withdrawn (R277). Reset: none. -/
  framesUsed : List Nat := []
  /-- Bolt units in use, as (first unit, units). Reset: none. -/
  boltUsed : List (Nat × Nat) := []
  /-- Lining ranges reserved in the region in 4 KiB units: page lists, pages, let-out rings, the PTT, caches. Reset: none. -/
  ranges : List (Nat × Nat) := []
  /-- Poison table: 64 KiB pages of the region (R275, R316). Reset: none. -/
  poison : List Nat := []
  /-- ECC_CORRECTED (R272). Reset: 0. -/
  eccCorrected : U32 := 0
  /-- ECC_UNCORRECTED (R272). Reset: 0. -/
  eccUncorrected : U32 := 0
  /-- PAGES_POISONED (R275). Reset: 0. -/
  pagesPoisoned : U32 := 0
  /-- SCRUB_PASSES (R273). Reset: 0. -/
  scrubPasses : U32 := 0
  /-- The burst the patrol scrub reads next (R273). Reset: 0 (DESIGN CHOICE log 2). -/
  scrubAt : Nat := 0
  /-- BOLT_MAC_FAIL (R282). Reset: 0. -/
  boltMacFail : U32 := 0
  /-- BOLT_ODECC (R281). Reset: 0. -/
  boltOdecc : U32 := 0
  /-- PF_PROMOTED (R304). Reset: 0. -/
  pfPromoted : U64 := 0
  /-- PF_DEMOTED (R307). Reset: 0. -/
  pfDemoted : U64 := 0
  /-- PF_MISS (R305). Reset: 0. -/
  pfMiss : U32 := 0
  /-- PF_STALL (R305). Reset: 0. -/
  pfStall : U64 := 0
  /-- PF_DROPPED (R303). Reset: 0. -/
  pfDropped : U32 := 0
  /-- CACHE_HITS (R313). Reset: 0. -/
  cacheHits : U64 := 0
  /-- CACHE_MISSES (R313). Reset: 0. -/
  cacheMisses : U64 := 0
  /-- BOBBINS_REFUSED (R291). Reset: 0. -/
  refused : U32 := 0
  /-- BOBBINS_LOST (R278). Reset: 0. -/
  lost : U32 := 0
  /-- Promotions under way, oldest first (R303, R304). Reset: none. -/
  promos : List PageMove := []
  /-- Demotions under way, oldest first, with appended-since marks (R307). Reset: none. -/
  demos : List (PageMove × Bool) := []
  /-- Narrow pages sealed and not yet replaced (R310). Reset: none. -/
  sealedPages : List SealedPage := []
  /-- Service inputs whose STEP_END has arrived this step (R302). Reset: none. -/
  stepEnds : List Nat := []
  /-- Tokens appended this step: (entry, plane, first, count) (R330). Reset: none. -/
  appended : List (Nat × Nat × Nat × Nat) := []
  /-- Cached PTT entries: (partition, page) (R269). Reset: none. -/
  pttCache : List (Nat × Nat) := []
  /-- Lining-as-cache lines, least recently used first (R312). Reset: none. -/
  cache : List CacheLine := []
  /-- Records served and not yet accepted under credit, oldest first (R301, R302). Reset: none. -/
  outbox : List OutMsg := []
  /-- Lining rows repaired to spare rows of their DRAM bank, at most 32 a bank (R483): row × 64 + bank. Reset: none. -/
  spareRows : List Nat := []
  /-- Key slots: current and previous epoch with the 96 bytes of MEM (R288, R572). Reset: none. -/
  keyCur : Option (Nat × List Byte) := none
  keyPrev : Option (Nat × List Byte) := none
  deriving DecidableEq, Repr

/-- A firmware image that LOAD packets are bringing (R469 to R471): its code, the attempt, its chunks, those received, its bytes, its digest
once that chunk has come, the chunks the steward sends again, and whether the node has confirmed it. -/
structure Loading where
  image : Nat
  attempt : Nat
  chunks : Nat
  got : List Nat
  bytes : Memory
  digest : Option (List Byte)
  asked : List Nat
  ok : Bool
  deriving DecidableEq, Repr

/-- One mesh node. -/
structure Node where
  /-- Fenced: STATE 5 of MC_STATUS, VC_STATUS, LN_STATUS (R110, R418). Reset: false. -/
  fenced : Bool := false
  /-- Node reset under way (R453). Reset: false. -/
  resetting : Bool := false
  /-- Clock gated by parking or a lost supply (R653). Reset: false. -/
  parked : Bool := false
  /-- The partition the node is placed in, if any (R212). Reset: none. -/
  part : Option Nat := none
  /-- MC_FAULT, VC_FAULT or LN_FAULT (R110, R151, R316). Reset: 0. -/
  fault : U64 := 0
  /-- MC_FAULT_LOC, VC_FAULT_LOC or LN_FAULT_LOC (R110, R151, R316). Reset: 0. -/
  faultLoc : U64 := 0
  /-- The node has stopped on a recorded fault; STATE 4 (R108, R151). Reset: false. -/
  halted : Bool := false
  /-- Faults as they were recorded: (code, step, lane, unit, column, row or package) (R129, R148, R161). Reset: none. -/
  hist : List (Nat × Nat × Nat) := []
  /-- How many of them the warden has been notified of (R399). Reset: 0. -/
  told : Nat := 0
  /-- Consumption events so far (R439), the model's own count. Reset: 0. -/
  events : Nat := 0
  core : Core := {}
  mc : MCore := {}
  ln : LNode := {}
  pad : Pad := {}
  pat : Pat := {}
  /-- Input endpoints, and service inputs of an L node (R174). Reset: disabled. -/
  ins : Table Ep := []
  /-- Output endpoints, and data outputs of an L node (R174). Reset: disabled. -/
  outs : Table Ep := []
  /-- LOAD images being received (R471). Reset: none. -/
  load : List Loading := []
  deriving DecidableEq, Repr

end Sys2Proof.Machine
end

