-- ==== Sys2Proof/Machine/ModState.lean ====
section
/-! DEFINITION. What the steward, the wardens, the hems, the supplies and the carrier hold (chapters 6 and 10 to 19).
Each field names the rule that gives it and its value at reset. -/

namespace Sys2Proof.Machine
open Sys2Proof

/-- PARTITION_STATE (R516, R528). -/
inductive PartState where
  | empty | loading | armed | running | paused | draining | resetting | faulted
  deriving DecidableEq, Repr

/-- The code of a partition state (R528). -/
def PartState.code : PartState → Nat
  | .empty => 0 | .loading => 1 | .armed => 2 | .running => 3 | .paused => 4 | .draining => 5 | .resetting => 6 | .faulted => 7

/-- MODULE_STATE (R514); `off` stands for every moment before the end of phase 4, when no code is reported. -/
inductive ModuleState where
  | off | test | fitting | ready | running | degraded | safe | service | updating
  deriving DecidableEq, Repr

/-- The code of a module state (R514). -/
def ModuleState.code : ModuleState → Nat
  | .off => 0 | .test => 1 | .fitting => 2 | .ready => 3 | .running => 4 | .degraded => 5 | .safe => 6 | .service => 7 | .updating => 8

/-- The staged (RWS) objects of one partition (R244, R528, R438, R463, R599, R530, R627). -/
structure PartCfg where
  /-- PARTITION_CLUSTERS, bit 4 × panel + q (R528). Reset: 0. -/
  clusters : BitVec 168 := 0
  /-- PARTITION_DOMAIN: [4:0] domain, [7] protected (R528). Reset: 0x00. -/
  domain : Byte := 0
  /-- STRIPE_SETS 1–7 (R267, R528). Reset: none. -/
  stripes : List (List Nat) := []
  /-- CACHE_SET (R312, R528). Reset: 0x0000. -/
  cacheSet : U16 := 0
  /-- DIGEST_ALL (R331, R528). Reset: 0. -/
  digestAll : Bool := false
  /-- EXCHANGE_INTERVAL (R349, R528). Reset: 1. -/
  exchange : Nat := 1
  /-- KNOT_ALLOC (R200, R528). Reset: 0. -/
  knotAlloc : Nat := 0
  /-- MEM_POOLS: L node index, frame pool, Bolt pool (R528). Reset: none. -/
  pools : List (Nat × U64 × U64) := []
  /-- FAULT_MODEL: 0 CLEAN, 1 SILENT (R429, R438). Reset: 0x00. -/
  faultModel : Nat := 0
  /-- SAMPLE_INTERVAL (R332, R438). Reset: 64. -/
  sampleInterval : Nat := 64
  /-- PRESSURE (R422, R438). Reset: 0. -/
  pressure : Bool := false
  /-- PRESSURE_HOLD in milliseconds (R428, R438). Reset: 1000. -/
  pressureHold : Nat := 1000
  /-- HANG_WINDOW in control cycles (R463). Reset: 33554432. -/
  hangWindow : Nat := 33554432
  /-- CTX_WINDOW in control cycles (R463). Reset: 1048576. -/
  ctxWindow : Nat := 1048576
  /-- WALK_SHARE (R577, R599). Reset: 512. -/
  walkShare : Nat := 512
  /-- MIRROR (R530, R617). Reset: 0. -/
  mirror : Bool := false
  /-- MIRROR_PEER (R627). Reset: 0xFF. -/
  mirrorPeer : Nat := 0xFF
  /-- ON_TWIN_LOSS (R623, R627). Reset: 0. -/
  onTwinLoss : Nat := 0
  /-- SHADOW (R617, R627). Reset: 0. -/
  shadow : Bool := false
  deriving DecidableEq, Repr

/-- A declared budget activity (R381): owner, traffic class, RATE, CAP and HARD of its class on every port. -/
structure Activity where
  owner : Nat
  tclass : Nat
  rate : Nat
  cap : Nat
  hard : Bool
  deriving DecidableEq, Repr

/-- The module configuration: one of the active and shadow sets (R244). -/
structure ConfigSet where
  /-- Staged objects by partition. Reset: every default. -/
  parts : Table PartCfg := []
  /-- TRANSIT (R530, R612). Reset: 0. -/
  transit : Bool := false
  /-- RELAY_TABLE entries that differ from DROP (R608, R627). Reset: all DROP. -/
  relay : Table Nat := []
  /-- Declared budget activities in priority order (R381). Reset: none. -/
  activities : List Activity := []
  deriving DecidableEq, Repr

/-- A suspect replay under way (R449, R450). -/
structure Suspect where
  node : NodeId
  /-- Slots still to be tried, the first being under trial. -/
  slots : List Nat
  /-- Slot and program index recorded in the sample. -/
  slotAt : Nat
  pcAt : Nat
  /-- Slots that reproduced, and whether one reproduced at another program index. -/
  reproduced : List Nat
  elsewhere : Bool
  deriving DecidableEq, Repr

/-- A channel or knot that a hang record names (R448 NAMED). -/
structure NamedEdge where
  src : Nat
  srcEp : Nat
  dst : Nat
  dstEp : Nat
  role : Nat
  deriving DecidableEq, Repr

/-- A mirrored INPUT payload kept by the shadow (R620). -/
structure MirrorInput where
  part : Nat
  step : Nat
  ep : Nat
  token : Nat
  tokval : Nat
  data : List Byte
  deriving DecidableEq, Repr

/-- A declared hang under examination or decided (R444 to R448). -/
structure HangState where
  /-- HANG_ID of its record. -/
  id : Nat
  cls : Nat
  /-- Named channels or knots (R448 NAMED). -/
  named : List NamedEdge
  suspect : Option Suspect
  deriving DecidableEq, Repr

/-- Keys and key-delivery state of a protected partition, as the vaults and the steward hold them (R569 to R581). -/
structure Keys where
  /-- Keys are installed (R599 KEY_STATUS). Reset: false. -/
  installed : Bool := false
  /-- MASTER (R570). Reset: none. -/
  master : List Byte := []
  /-- SEED (R570). Reset: 0. -/
  seed : U64 := 0
  /-- Current epoch (R575). Reset: 0. -/
  epoch : Nat := 0
  /-- DELIVERY_ID (R572). Reset: zeros. -/
  deliveryId : List Byte := List.replicate 32 0
  /-- STARTs since delivery (R573). Reset: 0. -/
  starts : Nat := 0
  /-- Output rewinds since START (R573). Reset: 0. -/
  rewinds : Nat := 0
  /-- KCV recorded at the first delivery (R571, R572). Reset: zeros. -/
  kcv : List Byte := List.replicate 8 0
  /-- A KCV has been recorded, and the partition holds memory until its release scrub (R571, R574). Reset: false. -/
  holdsMemory : Bool := false
  /-- Key-exchange public keys, 1,665 bytes once generated (R569). Reset: none. -/
  kexPublic : List Byte := []
  /-- WALK_STATUS: RUNNING and target epoch (R576, R599). Reset: 0. -/
  walking : Bool := false
  walkTarget : Nat := 0
  /-- Partition Bolt pages, in 4 KiB units, that the walker found failing their tags (R578). Reset: none. -/
  walkBad : List Nat := []
  /-- A VERSION_WRAP rotation request held until the walk ends (R579). Reset: false. -/
  wrapHeld : Bool := false
  /-- SEQ of the next sealed blob (R581). Reset: 0. -/
  blobSeq : Nat := 0
  /-- Import leaves: MADDR, LENGTH, leaf (R586). Reset: none. -/
  leaves : List (Nat × Nat × List Byte) := []
  deriving DecidableEq, Repr

/-- Counts and records of reproducibility (R323 to R335), cleared when armed for a new job (R335). -/
structure Repro where
  /-- TIMING_STEPS, FIRST_TIMING_STEP, SILENT_CHECKED, SILENT_SKIPPED, SILENT_PRIMARY, SILENT_TWIN (R528 REPRO_COUNTS). Reset: 0; FIRST_TIMING_STEP 0xFFFF_FFFF. -/
  timingSteps : U32 := 0
  firstTiming : U32 := 0xFFFFFFFF
  silentChecked : U32 := 0
  silentSkipped : U32 := 0
  silentPrimary : U32 := 0
  silentTwin : U32 := 0
  /-- Steps marked timing-dependent (R323). Reset: none. -/
  marks : List Nat := []
  /-- CONFIG_HISTORY: step, generation, kind (R325 to R327, R528). Reset: none. -/
  history : List (Nat × Nat × Nat) := []
  deriving DecidableEq, Repr

/-- Replays, hangs and suspects of a partition (R406, R440 to R451). -/
structure Trouble where
  /-- Replays of one step in succession for any cause, and for one node's hardware fault (R406). Reset: 0. -/
  replayStep : Nat := 0
  replayCount : Nat := 0
  replayNode : Option (NodeId × Nat) := none
  /-- A veto has been reported for this step (R233). Reset: none. -/
  vetoed : Option Nat := none
  /-- IDLE_DECLARED (R463). Reset: 0. -/
  idleDeclared : U32 := 0
  /-- Panels whose QUIET is unanswered (R441). Reset: none. -/
  quiet : List Nat := []
  /-- Program index of each node recorded with QUIET, and each panel's consumption events at its QUIET (R440). Reset: none. -/
  quietPc : Table Nat := []
  quietAt : Table Nat := []
  /-- The hang declared last and not settled (R445). Reset: none. -/
  hang : Option HangState := none
  /-- Class and named channels of a hang whose one replay is under way (R445). Reset: none. -/
  hangBefore : Option (Nat × List NamedEdge) := none
  /-- Slot named by the last suspect replay: node, slot, step (R451). Reset: none. -/
  namedSlot : Option (NodeId × Nat × Nat) := none
  /-- HANG_SAMPLE (R446, R463). Reset: none. -/
  sample : List Byte := []
  /-- UNRESOLVED_SILENT (R438), and the step of the last such event (R432). Reset: 0, none. -/
  unresolved : U32 := 0
  unresolvedAt : Option Nat := none
  /-- Nodes whose patrol or array diagnostic a SILENT_PRIMARY event has ordered and that have not passed it (R431). Reset: none. -/
  silentTests : List NodeId := []
  deriving DecidableEq, Repr

/-- Mirroring, digests and exchange of a partition (R330 to R334, R349, R620 to R625). -/
structure Mirroring where
  /-- MIRROR_COMMITTED (R620, R627). Reset: 0xFFFF_FFFF. -/
  committed : U32 := 0xFFFFFFFF
  /-- A detach has handed this partition over: its next START goes on from MIRROR_COMMITTED (R626). Reset: false. -/
  handed : Bool := false
  /-- Streams whose DURABLE has arrived: stream, step (R621). Reset: none. -/
  durable : List (Nat × Nat) := []
  /-- The step knot has completed and the commit waits for durability or a digest: the step (R233, R332). Reset: none. -/
  waiting : Option Nat := none
  /-- Step digests of this module and of the twin, by step (R331, R332). Reset: none. -/
  digests : List (Nat × List Byte) := []
  twinDigests : List (Nat × List Byte) := []
  /-- First digests of a sampled step that differed: step, ours, the twin's (R334). Reset: none. -/
  differed : Option (Nat × List Byte × List Byte) := none
  /-- Digest leaves gathered: step, 16-byte key, leaf (R330). Reset: none. -/
  leaves : List (Nat × List Byte × List Byte) := []
  /-- Gradient bytes received from the twin by exchange step (R349, R350). Reset: none. -/
  exchange : List (Nat × Memory) := []
  /-- The last exchange step whose own accumulated gradient has been sent (R349). Reset: none. -/
  exchanged : Option Nat := none
  /-- Mirrored bobbins marked for resync after a twin loss (R623). Reset: false. -/
  resync : Bool := false
  /-- Pages asked of the twin before a replay begins (R277): L node index, bobbin entry, page-list index. Reset: none. -/
  restoring : List (Nat × Nat × Nat) := []
  deriving DecidableEq, Repr

/-- Image, placement and knots of a partition (R210 to R212, R233, R239). -/
structure Placed where
  /-- The image admitted, with its digest (R211, R528 IMAGE_DIGEST). Reset: none, zeros. -/
  image : Option Image := none
  digest : List Byte := List.replicate 48 0
  /-- The image of a loaded next configuration (R239). Reset: none. -/
  nextImage : Option Image := none
  /-- PLACEMENT (R438). Reset: 0. -/
  placement : Nat := 0
  /-- Placed region: nodes that hold a pattern (R212). Reset: none. -/
  region : List NodeId := []
  /-- Allocated knot identifiers (R200). Reset: none. -/
  knots : List Nat := []
  /-- The two step knots and the commit home of the placement in use (R212, R233). Reset: 0. -/
  stepKnots : Nat × Nat := (0, 0)
  commitHome : NodeId := 0
  /-- PTT entries by partition page number: partition address / 2 MiB (R265, R269). Reset: none. -/
  ptt : Table U64 := []
  /-- Pages unmapped, or whose unmap waits for translated accesses (R270). Reset: none. -/
  unmapping : List Nat := []
  /-- Knots that the host's KNOT entries have named since arm (R443). Reset: none. -/
  hostKnots : List Nat := []
  /-- RESUMES (R438). Reset: 0. -/
  resumes : U32 := 0
  /-- LAST_RESUME_US (R438). Reset: 0. -/
  lastResumeUs : U32 := 0
  deriving DecidableEq, Repr

/-- A reconfiguration by seams: the generation it takes, the step running at the order, the nodes that have switched, the last step at which
one did, and whether it was forced (R241, R243, R326, R327). -/
structure SeamRun where
  gen : Nat
  start : Nat
  switched : List NodeId
  last : Nat
  forced : Bool
  deriving DecidableEq, Repr

/-- One partition as the steward runs it. -/
structure Partition where
  /-- PARTITION_STATE (R528). Reset: EMPTY. -/
  state : PartState := .empty
  /-- PARTITION_REASON (R518). Reset: 0x00. -/
  reason : Nat := 0
  pl : Placed := {}
  /-- STEP_COMMITTED (R528). Reset: 0xFFFF_FFFF. -/
  committed : U32 := 0xFFFFFFFF
  /-- Steps committed since START (R552). Reset: 0. -/
  stepsSinceStart : Nat := 0
  /-- STATE of JOB_STATUS (R552, R553). Reset: 0. -/
  jobState : Nat := 0
  /-- The job-end token has been received: the output offset after it (R554). Reset: none. -/
  jobEnd : Option Nat := none
  /-- The job ended with its token (R553). Reset: false. -/
  jobDone : Bool := false
  /-- A PAUSE, a twin loss or a detach waits for the next commit: its reason (R516). Reset: none. -/
  pauseReq : Option Nat := none
  /-- A reconfiguration by seams under way (R241, R326). Reset: none. -/
  seam : Option SeamRun := none
  /-- A configuration change that the next started step records: its kind (R325). Reset: none. -/
  histDue : Option Nat := none
  /-- TENANT_SEED (R528), and the seed that the last load installed (R142, R675). Reset: 0. -/
  tenantSeed : U64 := 0
  seedUsed : U64 := 0
  /-- A partition reset under way: 0 reset, 1 unload, 2 module reset, 3 debug class D2, 4 an unload whose release scrub is running (R454, R456,
  R517, R590). Reset: none. -/
  resetFor : Option Nat := none
  /-- LOADING that began in FAULTED (R516, R517). Reset: false. -/
  fromFaulted : Bool := false
  keys : Keys := {}
  rep : Repro := {}
  tr : Trouble := {}
  mir : Mirroring := {}
  deriving DecidableEq, Repr

/-- A submission ring of a PCIe function (R538, R542). -/
structure Ring where
  /-- SQ_BASE (R538). Reset: 0 (DESIGN CHOICE log 2). -/
  sqBase : U64 := 0
  /-- CQ_BASE (R538). Reset: 0 (DESIGN CHOICE log 2). -/
  cqBase : U64 := 0
  /-- RING_CFG (R538). Reset: 0. -/
  cfg : U64 := 0
  /-- SQ_TAIL (R538). Reset: 0 (DESIGN CHOICE log 2). -/
  sqTail : Nat := 0
  /-- CQ_HEAD (R538). Reset: 0 (DESIGN CHOICE log 2). -/
  cqHead : Nat := 0
  /-- ERROR of RING_STATUS (R538). Reset: 0. -/
  error : Bool := false
  /-- SQ_HEAD of RING_STATUS (R538). Reset: 0. -/
  sqHead : Nat := 0
  /-- CQ_TAIL of RING_STATUS (R538). Reset: 0. -/
  cqTail : Nat := 0
  /-- PHASE of the next completion (R542). Reset: 1. -/
  phase : Bool := true
  /-- Entries fetched and not started, oldest first (R545). Reset: none. -/
  waiting : List SqEntry := []
  /-- Entries started and not completed, oldest first, with the data an INPUT carries (R545, R547). Reset: none. -/
  started : List (SqEntry × List Byte) := []
  /-- Completions that wait for room in the completion ring (R542): tag, status, result, IRQ. Reset: none. -/
  comps : List (Nat × Nat × Nat × Bool) := []
  deriving DecidableEq, Repr

/-- A PCIe function of a Host hem (R533, R538). Function 0 is PF0, n is VF n. -/
structure HostFn where
  /-- VF enabled (R533). Reset: false. -/
  enabled : Bool := false
  /-- Rings (R538). Reset: each at its own reset. -/
  rings : Table Ring := []
  /-- STATUS_MIRROR (R538). Reset: 0 (DESIGN CHOICE log 2). -/
  statusMirror : U64 := 0
  /-- OUT_BASE_p, OUT_CFG_p, OUT_READ_p by partition (R538). Reset: 0. -/
  outBase : Table U64 := []
  outCfg : Table U64 := []
  outRead : Table Nat := []
  /-- APERTURE_b (R538). Reset: 0 (DESIGN CHOICE log 2). -/
  apertures : Table U64 := []
  /-- Dictionary mailbox: request buffer, response buffer, MBX_STATUS (R504). Reset: 0. -/
  mbxReq : Memory := []
  mbxResp : List Byte := []
  mbxStatus : U64 := 0
  /-- IDE selective stream established (R535). Reset: false. -/
  ide : Bool := false
  /-- A VF of a protected partition waits for its stream after failover (R563). Reset: false. -/
  ideWait : Bool := false
  /-- MSI-X vectors raised, oldest first (R534). Reset: none. -/
  raised : List Nat := []
  deriving DecidableEq, Repr

/-- A Host hem (chapters 15 and 16). -/
structure HostHem where
  /-- Functions 0–16. Reset: each at its own reset. -/
  fns : Table HostFn := []
  /-- ROLE of HOST_STATUS (R539): 0 down, 1 active, 2 standby. Reset: 0 (DESIGN CHOICE log 2). -/
  role : Nat := 0
  /-- FAILOVER (R539). Reset: 0. -/
  failover : Bool := false
  /-- PCIe link in L0, with its trained width and rate (R532). Reset: down. -/
  linkUp : Bool := false
  width : Nat := 0
  rate : Nat := 0
  /-- PERST_N asserted (R660). Reset: true (pull-down). -/
  perst : Bool := true
  /-- BAR4_DISCARDS (R540). Reset: 0. -/
  bar4Discards : U32 := 0
  /-- Supply lost by its fuse (R633). Reset: false. -/
  dead : Bool := false
  /-- Fuses: SEAL_BREAKS, RESEALS, ARB (R566). Reset: 0 (DESIGN CHOICE log 2). -/
  sealBreaks : Nat := 0
  reseals : Nat := 0
  arb : Nat := 0
  /-- A break has been blown since power-up (R597). Reset: false. -/
  blown : Bool := false
  /-- Flash banks 0 and 1, and the active bank of the selector (R592). Reset: empty, 0 (DESIGN CHOICE log 2). -/
  bank0 : List Byte := []
  bank1 : List Byte := []
  active : Nat := 0
  /-- TRAY_CYCLE_REQ driven by this hem (R457, R664). Reset: false. -/
  trayCycle : Bool := false
  /-- Control-cycle time of the watchdog's last stroke (R457). Reset: 0. -/
  stroked : Nat := 0
  /-- ROM boot code shown on STAT by this hem's C node, if it stopped (R467, R665). Reset: none. -/
  bootCode : Option Nat := none
  /-- 10BASE-T1S polarity corrected (R635 code 0x0B). Reset: false. -/
  polarity : Bool := false
  deriving DecidableEq, Repr

/-- A record that the hem sends on a host input endpoint (R547): its STEP and what it carries. -/
structure HostRec where
  step : Nat
  token : Nat
  tokval : Nat
  data : List Byte
  deriving DecidableEq, Repr

/-- A record in a partition's output ring at the hem (R548), with the ring bytes it gives back when drained. -/
structure HeldRec where
  hdr : U128
  data : List Byte
  give : Nat
  deriving DecidableEq, Repr

/-- A COPY or IMPORT entry under way (R544, R556): its ring, the bytes moved so far, the memory request awaited by its TAG and length, and
the host's bytes that a COPY_IN or an IMPORT writes. -/
structure CopyJob where
  f : Nat
  ring : Nat
  entry : SqEntry
  pos : Nat
  tag : Nat
  len : Nat
  data : List Byte
  deriving DecidableEq, Repr

/-- Host endpoints and output of the active Host hem (R547 to R551). -/
structure HostIo where
  /-- Sender ends of host input endpoints, key 16 × partition + endpoint (R547). Reset: disabled. -/
  ins : Table Ep := []
  /-- Records waiting for credit on a host input endpoint, by the same key (R545, R547). Reset: none. -/
  queue : Table (List HostRec) := []
  /-- Receiver end of each partition's output ring, 64 slots (R548). Reset: disabled. -/
  outs : Table Ep := []
  /-- Output offset o by partition, in 64-byte units (R548). Reset: 0. -/
  offset : Table Nat := []
  /-- JOB_WATERMARK by partition (R550). Reset: 0. -/
  watermark : Table Nat := []
  /-- Output offsets after each record past the watermark: key partition, (next SEQ, offset) (R550). Reset: none. -/
  stepEnds : Table (List (Nat × Nat)) := []
  /-- Plaintext output bytes since the watermark, for the step digest (R330 KIND 0x02). Reset: none. -/
  since : Table (List Byte) := []
  /-- Records held in the output SRAM ring, oldest first (R548). Reset: none. -/
  held : Table (List HeldRec) := []
  /-- Knot requests in flight from rings: ticket, function, ring, entry (R559). Reset: none. -/
  knots : List (Nat × Nat × Nat × SqEntry) := []
  /-- A KNOT WAIT answered RETRY, kept for its resend: request payload (R559, R203). Reset: none. -/
  knotRetry : List U128 := []
  /-- COPY and IMPORT entries under way (R556, R558). Reset: none. -/
  copies : List CopyJob := []
  /-- TAG of the next memory request (R364). Reset: 0 (DESIGN CHOICE log 2). -/
  nextTag : Nat := 0
  /-- Cached PTT entries: (partition, page) (R269). Reset: none. -/
  pttCache : List (Nat × Nat) := []
  /-- What the last BAR4 read returned (the model's own record of the wire, R540). Reset: none. -/
  readBack : List Byte := []
  deriving DecidableEq, Repr

/-- A DOMAIN transfer (R510 to R512); `op` is the operation that opened it: 1 reads, any other writes. -/
structure Transfer where
  xfer : Nat
  who : Requester
  op : Nat
  index : Nat
  sub : Nat
  total : Nat
  data : List Byte
  moved : Nat
  deriving DecidableEq, Repr

/-- A record of the power event log (R657): code, subject, time. -/
structure PowerEvent where
  code : Nat
  subject : Nat
  time : Nat
  deriving DecidableEq, Repr

/-- A record of the fault log (R436). -/
structure FaultEvent where
  gen : Nat
  step : Nat
  kind : Nat
  code : Nat
  x : Nat
  y : Nat
  part : Nat
  port : Nat
  placement : Nat
  stamp : Nat
  panel : Nat
  deriving DecidableEq, Repr

/-- A fault event on its way to the steward (R399, R403): its log record and what it is about. -/
structure FaultNote where
  ev : FaultEvent
  node : NodeId
  /-- The node was fenced with it. -/
  fenced : Bool
  deriving DecidableEq, Repr

/-- A fault map entry (R412). -/
structure MapEntry where
  state : Nat := 0
  router : Nat := 0
  /-- Link states by port (R412 LINKS). -/
  links : Table Nat := []
  code : Nat := 0
  repairs : Nat := 0
  faults : Nat := 0
  genLow : Nat := 0
  deriving DecidableEq, Repr

/-- A panel: its warden's duties, clocks and heat (chapters 11, 12, 13, 18). -/
structure Panel where
  /-- PANEL_STATE: 0 RUN, 1 THROTTLE, 2 PARKED, 3 DARK, 4 LOST (R530, R652). Reset: 3, unpowered (DESIGN CHOICE log 2). -/
  state : Nat := 3
  /-- Time at which it began THROTTLE, while it is in it (R428). Reset: none. -/
  throttledAt : Option Nat := none
  /-- PANEL_REQUEST (R530). Reset: 0x00. -/
  request : Nat := 0
  /-- PANEL_DARK_REASON (R657). Reset: 0x00. -/
  darkReason : Nat := 0
  /-- Core and fabric divider in force (R638). Reset: 4 and 8 (DESIGN CHOICE log 2). -/
  core : Nat := 4
  fabric : Nat := 8
  /-- Divider asked for by the thermal loop, deep throttle, the limiter's cap, and whether that cap came from the power alarm (R645, R649, R650).
  Reset: 4, false, 4, false. -/
  thermal : Nat := 4
  deep : Bool := false
  cap : Nat := 4
  alarmCap : Bool := false
  /-- Hottest logic and DRAM readings in 0.01 °C (R657). Reset: 0 (DESIGN CHOICE log 2). -/
  tempLogic : Int := 0
  tempDram : Int := 0
  /-- Times of the thermal loop: its last step slower, since when T_L has been 103 °C or above, and since when 90 °C or below (R645), in control cycles. Reset: none. -/
  hotStep : Option Nat := none
  hotPark : Option Nat := none
  coolSince : Option Nat := none
  /-- Refresh multiple of the Lining: 1, 2 or 4 (R646). Reset: 1. -/
  refresh : Nat := 1
  /-- PANEL_POWER in watts (R657). Reset: 0 (DESIGN CHOICE log 2). -/
  power : Nat := 0
  /-- PANEL_VOLT in millivolts (R657). Reset: 0 (DESIGN CHOICE log 2). -/
  volt : Nat := 0
  /-- Links held for a fabric divider change (R386). Reset: false. -/
  linkHold : Bool := false
  /-- PATROL_FAILS (R438). Reset: 0. -/
  patrolFails : U32 := 0
  /-- PATROL_DEFERRED (R438). Reset: 0. -/
  patrolDeferred : U32 := 0
  /-- Which of the panel's V and F cores is patrolled next (R408). Reset: 0 (DESIGN CHOICE log 2). -/
  patrolNext : Nat := 0
  /-- WSEQ of the next panel record (R394), and the last record sent. Reset: 0, none. -/
  wseq : Nat := 0
  record : List Byte := []
  /-- Fabric divider changed during the telemetry window (R394). Reset: false. -/
  fabricChanged : Bool := false
  /-- Offset of its CTRL_COUNT to Host hem A's (R643). Reset: 0. -/
  offset : Int := 0
  /-- The panel faces the tests of the window and waits (R474). Reset: false. -/
  testWait : Bool := false
  deriving DecidableEq, Repr

/-- The input supply, cooling and start-up of the module (chapters 18, 19). -/
structure Power where
  /-- PWR_EN at J1 and J2 (R660, R662). Reset: false (pull-down). -/
  enJ1 : Bool := false
  enJ2 : Bool := false
  /-- The module is powered up (R636, R637). Reset: false. -/
  on : Bool := false
  /-- Connectors P1–P4 live (R630). Reset: true once powered; at power-on all four (DESIGN CHOICE log 2). -/
  live : List Bool := [true, true, true, true]
  /-- Sense fallback (R634). Reset: false. -/
  senseFallback : Bool := false
  /-- Alarm asserted (R650). Reset: false. -/
  alarm : Bool := false
  /-- POWER_LIMIT in watts, once written (R530). Reset: the grade envelope. -/
  limit : Option Nat := none
  /-- INPUT_POWER in watts (R530). Reset: 0 (DESIGN CHOICE log 2). -/
  input : Nat := 0
  /-- Time since which input power has been at least 5 % below the limit (R649). Reset: none. -/
  lowSince : Option Nat := none
  /-- Coolant inlet in 0.01 °C, as last reported (R656, R657). Reset: 0 (DESIGN CHOICE log 2). -/
  inlet : Int := 0
  /-- POWER_EVENTS, oldest first, at most 256 (R657). Reset: none. -/
  events : List PowerEvent := []
  /-- Reference clock present (R636, R641). Reset: false. -/
  refclk : Bool := false
  /-- Fuses open by panel and hem (R633). Reset: none. -/
  fuses : List Branch := []
  /-- TRAY_CYCLE_REQ_N held low by the module (R664). Reset: false. -/
  trayCycle : Bool := false
  deriving DecidableEq, Repr

/-- A frame held by the relay for an output port (R610). -/
structure SpPort where
  /-- STATE, WIDTH, LANES_FAILED, LAST_EVENT, POLARITY, ORDER_FIXED, PEER_ADDR of SP_STATUS (R628). Reset: 0. -/
  state : Nat := 0
  width : Nat := 0
  lanesFailed : Nat := 0
  lastEvent : Nat := 0
  polarity : Nat := 0
  orderFixed : Bool := false
  peerAddr : Nat := 0
  /-- Frames waiting for the port's output, with the link VC (R610). Reset: none. -/
  queue : List (Nat × Frame) := []
  /-- Frames sent, oldest first, with the link VC (the model's own record of the wire). Reset: none. -/
  sent : List (Nat × Frame) := []
  /-- FLITS_v and STALL_v (R628). Reset: 0. -/
  flits : Table U64 := []
  stalls : Table U64 := []
  /-- FEC_CORRECTED, FEC_UNCORRECTED, CRC_ERRORS, RETRIES, TTL_DROPS, RELAY_DROPS, RELAY_EXPIRED, RELAY_NOPATH, DUP_FRAMES,
  TAG_FAILS, BAD_FRAMES (R628). Reset: 0. -/
  fecCorrected : U64 := 0
  fecUncorrected : U32 := 0
  crcErrors : U32 := 0
  retries : U32 := 0
  ttlDrops : U32 := 0
  relayDrops : U32 := 0
  relayExpired : U32 := 0
  relayNopath : U32 := 0
  dupFrames : U32 := 0
  tagFails : U32 := 0
  badFrames : U32 := 0
  deriving DecidableEq, Repr

/-- A stream of frames (R607, R619): both directions of one stream number. -/
structure Stream where
  /-- ESEQ of the next frame sent (R605). Reset: 0. -/
  next : Nat := 0
  /-- Frames sent and not acknowledged (R607). Reset: none. -/
  unacked : List Frame := []
  /-- ESEQ of the next frame to deliver (R607). Reset: 0. -/
  expect : Nat := 0
  /-- Frames held ahead of a gap (R607). Reset: none. -/
  held : List Frame := []
  /-- Frames delivered since the last ACK (R607). Reset: 0. -/
  sinceAck : Nat := 0
  /-- A page whose frames are arriving: its ARG and the bytes so far (R625). Reset: none. -/
  pageArg : U128 := 0
  pageBuf : List Byte := []
  /-- APPEND and INPUT frames sent, by step, while its END has not been (R605 END). Reset: none. -/
  stepFrames : Table Nat := []
  /-- Steps whose END waits for its DURABLE, with the time it was sent (R623). Reset: none. -/
  ends : List (Nat × Nat) := []
  deriving DecidableEq, Repr

/-- Twin, Spakan links and relay (chapter 17). -/
structure TwinState where
  /-- TWIN_STATE [3:0] and [7] (R616). Reset: 0. -/
  state : Nat := 0
  override : Bool := false
  /-- TWIN_EXPECT (R627). Reset: zeros. -/
  expect : List Byte := List.replicate 16 0
  /-- TWIN_TIMEOUT in microseconds (R627). Reset: 5000. -/
  timeout : Nat := 5000
  /-- TWIN_STATUS (R627). Reset: 0x0. -/
  status : Nat := 0
  /-- Peer: serial, address, domains (R627 TWIN_PEER). Reset: zeros. -/
  peer : Option HelloInfo := none
  /-- The pairing record in force, if this module joins (R613). Reset: none. -/
  record : List Byte := []
  /-- HELLO nonce sent (R614). Reset: none. -/
  nonce : Option U128 := none
  /-- LINK_ID (R616). Reset: none. -/
  linkId : List Byte := []
  /-- FAILURE_DOMAIN 1–4 (R530). Reset: 0x0000. -/
  domains : List U16 := [0, 0, 0, 0]
  /-- SPAKAN_ADDR (R606). Reset: 0x0000. -/
  addr : U16 := 0
  /-- Ports 0–47 (R600). Reset: each at its own reset. -/
  ports : Table SpPort := []
  /-- Streams by number (R605). Reset: each at its own reset. -/
  streams : Table Stream := []
  /-- Time of the last valid twin frame in control cycles (R623). Reset: 0. -/
  lastTwin : Nat := 0
  /-- Mirrored INPUT payloads kept by the shadow (R620). Reset: none. -/
  inputs : List MirrorInput := []
  /-- Bobbins still to be copied to the twin: partition, L node index, entry (R625). Reset: none. -/
  copying : List (Nat × Nat × Nat) := []
  /-- A detach is under way (R626). Reset: false. -/
  detaching : Bool := false
  deriving DecidableEq, Repr

/-- Firmware, fuses, debug classes and the selvage (chapter 16). -/
structure Security where
  /-- DEBUG_CLASS by cluster (R589). Reset: 0 D0. -/
  debugCls : Table Nat := []
  /-- Selvage loop open now (R597). Reset: false. -/
  loopOpen : Bool := false
  /-- Digest and version of the firmware the steward and the standby run; SVN (R585, R592). Reset: zeros (DESIGN CHOICE log 2). -/
  fwSteward : List Byte := List.replicate 48 0
  fwStandby : List Byte := List.replicate 48 0
  fwVersion : Nat := 0
  svnSteward : Nat := 0
  svnStandby : Nat := 0
  /-- Digest of a staged image, if one is pending (R587 UPDATE_PENDING). Reset: none. -/
  staged : Option (List Byte) := none
  /-- FW_STATUS (R599). Reset: 0x0. -/
  fwStatus : U32 := 0
  /-- FW_DOWNGRADE and ARB_HOLD (R599). Reset: 0 and 1. -/
  downgrade : Bool := false
  arbHold : Bool := true
  /-- Operator Bolt key (R287). Reset: 32 zero bytes (DESIGN CHOICE log 2). -/
  operatorKey : List Byte := List.replicate 32 0
  deriving DecidableEq, Repr

/-- A bring-up report record (R486). -/
structure TestRecord where
  test : Nat
  full : Bool
  coverage : Nat
  durationMs : Nat
  tested : Nat
  failed : Nat
  deriving DecidableEq, Repr

/-- The stored record of both Host hem flashes (R486): the fault map and the repair maps. -/
structure Stored where
  map : Table MapEntry := []
  /-- M spare lanes: node, logical row and column served by each spare; and the physical rows and columns retired. -/
  lanes : List (NodeId × Table Nat × Table Nat) := []
  lost : List (NodeId × List Nat × List Nat) := []
  /-- Retired scratchpad rows by node. -/
  rows : List (NodeId × List (Nat × Nat)) := []
  /-- Lining rows repaired to spare rows by L node (R483). -/
  lining : List (NodeId × List Nat) := []
  deriving DecidableEq, Repr

/-- Bring-up (chapter 13). -/
structure Bringup where
  /-- The part's grade, in the order of R3: 0 AFB-W2000-25, 1 AFB-W2000-18, 2 AFB-W1800-18, 3 AFB-W1600-12. Reset: 0 (DESIGN CHOICE log 2). -/
  grade : Nat := 0
  /-- BRINGUP_PHASE: the phase now running, 0x0D when complete (R495). Reset: 0x00. -/
  phase : Nat := 0
  /-- BRINGUP_MODE, stored in flash (R495). Reset: 1. -/
  mode : Nat := 1
  /-- BRINGUP_LAST: full, reason, FLASH_MISMATCH (R495). Reset: 0 (DESIGN CHOICE log 2). -/
  full : Bool := false
  reason : Nat := 0
  mismatch : Bool := false
  /-- BRINGUP_REPORT (R495). Reset: none. -/
  report : List TestRecord := []
  /-- BRINGUP_TIME_MS (R495). Reset: 0. -/
  timeMs : Nat := 0
  /-- ACCEPT_BELOW_GRADE, stored in flash (R495). Reset: 0. -/
  accept : Bool := false
  /-- GRADE_SHORT (R495). Reset: 0x00. -/
  short : Nat := 0
  /-- FAST_SINCE_FULL (R495). Reset: 0. -/
  fastSince : Nat := 0
  /-- BRINGUP_DIFF (R495). Reset: 0. -/
  diff : Nat := 0
  /-- In-progress mark in flash (R493). Reset: false. -/
  mark : Bool := false
  /-- Test failures found so far: node and code (R488). Reset: none. -/
  fails : List (NodeId × Nat) := []
  /-- Routers and links found bad (R476). Reset: none. -/
  badRouters : List NodeId := []
  badLinks : List (NodeId × Nat) := []
  /-- The stored record, if flash holds a valid one (R486). Reset: none (DESIGN CHOICE log 2). -/
  stored : Option Stored := none
  /-- Firmware image that ran the previous bring-up (R492). Reset: zeros (DESIGN CHOICE log 2). -/
  lastFw : List Byte := List.replicate 48 0
  /-- Configuration kept in flash: the committed set, and of the twin's objects the failure domains, TWIN_EXPECT, TWIN_TIMEOUT, SPAKAN_ADDR and
  the pairing record (R491). Reset: none. -/
  config : Option ConfigSet := none
  kept : Option TwinState := none
  /-- Panels whose both C nodes failed, to be switched off (R477). Reset: none. -/
  wardenLost : List Nat := []
  /-- Bolt packages failed (R484). Reset: none. -/
  badPackages : List Nat := []
  /-- Nodes still loading and nodes that have confirmed the image (R472). Reset: none. -/
  confirmed : List NodeId := []
  deriving DecidableEq, Repr

/-- An EXECUTE whose answer waits for its action (R500): its header fields, and what it waits for: a partition below 16 entering one of the
states listed, or a module-wide action by number (16 module reset, 17 detach, 32 + p the walker of partition p). -/
structure Await where
  who : Requester
  seq : Nat
  index : Nat
  sub : Nat
  part : Nat
  want : List Nat
  deriving DecidableEq, Repr

/-- The dictionary service (R496 to R526). -/
structure Dict where
  /-- CONFIG_GEN (R527). Reset: 0x0000_0000. -/
  gen : Nat := 0
  /-- COMMIT_STATUS (R527). Reset: 0x0. -/
  commitStatus : Nat := 0
  /-- Stage owner (R519). Reset: none. -/
  owner : Option Requester := none
  /-- STAGE_OWNER as it reads while there is an owner (R527). Reset: 0x0. -/
  ownerCode : Nat := 0
  /-- The set of an accepted COMMIT that waits for its seams (R245). Reset: none. -/
  committing : Option ConfigSet := none
  /-- STAGE_TIMEOUT in milliseconds (R527). Reset: 60000. -/
  stageTimeout : Nat := 60000
  /-- STAGE_DISCARDS (R527). Reset: 0. -/
  stageDiscards : U32 := 0
  /-- The active and shadow sets (R244). Reset: defaults. -/
  active : ConfigSet := {}
  shadow : ConfigSet := {}
  /-- Objects staged since the shadow last equalled the active set: (index, subindex) (R521). Reset: none. -/
  staged : List (Nat × Nat) := []
  /-- Stored responses: requester, SEQUENCE, response, newest last (R503). Reset: none. -/
  store : List (Requester × Nat × List Byte) := []
  /-- Responses sent on segments, oldest first: requester and datagram (the model's own record of the wire). Reset: none. -/
  replies : List (Requester × List Byte) := []
  /-- Neighbour solicitations answered: hem and address (R498; the model's own record of the wire). Reset: none. -/
  adverts : List (Nat × U128) := []
  /-- Open DOMAIN transfers (R510 to R512), and the next XFER. Reset: none, 1 (DESIGN CHOICE log 2). -/
  transfers : List Transfer := []
  nextXfer : Nat := 1
  /-- Functions whose doorbelled request waits in the queue, oldest first, and BUSY answers (R504, R525, R526). Reset: none, 0. -/
  queue : List Nat := []
  busy : U32 := 0
  /-- EXECUTE requests whose action is under way (R500). Reset: none. -/
  awaiting : List Await := []
  /-- Presence: end of the Tack window in control cycles; jumper fitted (R523). Reset: 0, false. -/
  tackUntil : Nat := 0
  jumper : Bool := false
  deriving DecidableEq, Repr

/-- The fault map and the logs (R412 to R448). -/
structure Faults where
  /-- FAULT_GEN (R438). Reset: 0x0000_0000. -/
  gen : Nat := 0
  /-- FAULT_MAP_STORED (R438). Reset: 0x0000_0000. -/
  stored : Nat := 0
  /-- A map change waits to be written to flash (R414). Reset: false. -/
  dirty : Bool := false
  /-- Fault map entries (R412). Reset: GOOD (DESIGN CHOICE log 2; R412 gives no reset). -/
  map : Table MapEntry := []
  /-- FAULT_LOG, oldest first, at most 4,096 (R436), and FAULT_LOG_SEQ. Reset: none, 0. -/
  log : List FaultEvent := []
  seq : U32 := 0
  /-- Fault events sent by wardens and not yet received (R399). Reset: none. -/
  notes : List FaultNote := []
  /-- HANG_LOG, oldest first, at most 256 (R448), and hangs declared. Reset: none, 0. -/
  hangLog : List (List Byte) := []
  hangs : Nat := 0
  /-- Router parity events: (router, time) (R407). Reset: none. -/
  parityAt : List (NodeId × Nat) := []
  /-- Bolt packages out of service (R435). Reset: none. -/
  boltLost : List Nat := []
  deriving DecidableEq, Repr

/-- A scan item (R250, R251). -/
structure ScanItem where
  ty : Nat
  index : Nat
  step : Nat
  data : List Byte
  deriving DecidableEq, Repr

/-- A scan that the steward holds (R250 to R252): its items, the DIGEST of each loaded slot, and the node as it stopped, from which a scan-in
restores what no item spells out (log 49). -/
structure ScanRec where
  items : List ScanItem
  digests : List (Nat × List Byte)
  node : Node
  deriving DecidableEq, Repr

/-- The steward and its standby (R434, R514). -/
structure Steward where
  /-- MODULE_STATE (R514). Reset: none reported. -/
  mstate : ModuleState := .off
  /-- The standby has taken over (R434); either C node lost (R434, R467). Reset: false. -/
  standbyActs : Bool := false
  stewardLost : Bool := false
  standbyLost : Bool := false
  /-- Heartbeats missed by the standby (R434). Reset: 0. -/
  missed : Nat := 0
  /-- Journal entries sent, and received by the standby (R434). Reset: 0. -/
  journal : Nat := 0
  journalGot : Nat := 0
  /-- PATROL_PERIOD in milliseconds (R438). Reset: 10000. -/
  patrolPeriod : Nat := 10000
  /-- RT_WINDOW object (R530). Reset: 1048576. -/
  rtWindow : Nat := 1048576
  /-- TELEMETRY_DECIMATION (R530). Reset: 1. -/
  decimation : Nat := 1
  /-- CONGESTION_MAP: the last record of each panel (R530). Reset: none. -/
  congestion : Table (List Byte) := []
  /-- SERVICE_RESULT (R530). Reset: zeros. -/
  serviceResult : List Byte := List.replicate 16 0
  /-- A module reset under way (R456): the state to return to. Reset: none. -/
  moduleReset : Option ModuleState := none
  /-- SAFE has been requested and waits for the last partition to be EMPTY (R515). Reset: false. -/
  safeWanted : Bool := false
  /-- Scans taken, by node (R250). Reset: none. -/
  scans : Table ScanRec := []
  /-- The other Host hem serves: hem B is active (R560). Reset: false (hem A by default). -/
  hostB : Bool := false
  d : Dict := {}
  f : Faults := {}
  deriving DecidableEq, Repr

end Sys2Proof.Machine
end

