-- ==== Sys2Proof/Machine/State.lean ====
section
/-! DEFINITION. The state of the module, its faults and refusals, and the state right after power is applied. -/

namespace Sys2Proof.Machine
open Sys2Proof

/-- Why a command stops the model. -/
inductive Fault where
  /-- The command names a unit the module does not have: a node outside the mesh or of another kind, a partition above 15, a port
  or hem that is not there. Raised by every command's own check of its operands. Safe: such a command cannot be given to the hardware. -/
  | noSuchUnit
  /-- The word or list a command carries is not one of its row: the model stops rather than guess. Raised by rows that split one
  operation by a field (LOOP, RECV, CVTMX). Safe: such a word is another row's command. -/
  | otherRow
  deriving DecidableEq, Repr

/-- Why the model gives no meaning to a command. -/
inductive Refusal where
  /-- No meaning is written yet for the row of this mnemonic. Safe. -/
  | notModelled (mnemonic : String)
  deriving DecidableEq, Repr

/-- A packet of the mesh (R355, R361): its header flit's route header and payload bits, and its data bytes. -/
structure Packet where
  /-- Model's number, in order of injection. -/
  id : Nat
  /-- Route header (R361). -/
  route : U128
  /-- Header flit bits [255:128] (R362). -/
  pay : U128
  /-- Data flit bytes (R355). -/
  data : List Byte
  /-- Router that holds it. -/
  at' : NodeId
  /-- Where it has been delivered, once it has. -/
  out : Option Place
  /-- Cut by an abort marker (R391). -/
  aborted : Bool
  /-- The port it came into that router by (R352, R354). -/
  via : Nat
  deriving DecidableEq, Repr

/-- The machine. -/
structure State where
  /-- Commands waiting, first in first out. Reset: empty. -/
  pending : List Instr := []
  /-- Control cycles since power was applied. Reset: 0. -/
  clock : Nat := 0
  /-- The next free value (the model's own field, log 1). Reset: 0 (DESIGN CHOICE log 1). -/
  free : Nat := 0
  /-- Mesh nodes by index 64y + x. Reset: each at its own reset. -/
  nodes : Table Node := []
  /-- Routers by index 64y + x (chapter 10). Reset: each at its own reset. -/
  routers : Table Router := []
  /-- Packets in the fabric in order of injection. Reset: none. -/
  flight : List Packet := []
  /-- Number of the next packet. Reset: 0. -/
  nextPid : Nat := 0
  /-- Lining cells by Lining physical address, as stored (R260, R284). Reset: unlisted reads 0 (DESIGN CHOICE log 2). -/
  lining : Memory := []
  /-- Bolt cells by Bolt physical offset, as stored (R261, R285). Reset: unlisted reads 0 (DESIGN CHOICE log 2). -/
  bolt : Memory := []
  /-- Metadata of Bolt lines by line offset (R280). Reset: 0 (DESIGN CHOICE log 2). -/
  boltMeta : Table U64 := []
  /-- Partitions 0–15. Reset: each at its own reset. -/
  parts : Table Partition := []
  /-- Panels 0–41. Reset: each at its own reset. -/
  panels : Table Panel := []
  /-- The steward's objects and duties. Reset: at its own reset. -/
  stw : Steward := {}
  /-- Host hems A and B. Reset: each at its own reset. -/
  hemA : HostHem := {}
  hemB : HostHem := {}
  /-- Host endpoints and output, of the active hem. Reset: at its own reset. -/
  io : HostIo := {}
  /-- What the module has written in host memory: completions, output, copies, mirrors (R542 to R556). Reset: none written. -/
  hostMem : Memory := []
  /-- Twin, Spakan links and relay. Reset: at its own reset. -/
  twin : TwinState := {}
  /-- Firmware, fuses, debug classes and the selvage. Reset: at its own reset. -/
  sec : Security := {}
  /-- Supplies, clocks and cooling. Reset: at its own reset. -/
  pow : Power := {}
  /-- Bring-up. Reset: at its own reset. -/
  brg : Bringup := {}
  deriving DecidableEq, Repr

/-- The module at power-on, before PWR_EN (R636). -/
def State.reset : State := {}

end Sys2Proof.Machine
end

