-- ==== Sys2Proof/Machine/Ops.lean ====
section
/-! DEFINITION. Access to nodes, the guards every command begins with, fault records, and the scratchpad (R108, R149, R152 to R173). -/

namespace Sys2Proof.Machine
open Sys2Proof

/-- What a command answers. -/
abbrev Res := Host.Outcome State Fault Refusal

/-- A node's state. -/
def State.node (s : State) (n : NodeId) : Node := Table.get {} s.nodes n
/-- The state with a node replaced. -/
def State.setNode (s : State) (n : NodeId) (d : Node) : State := { s with nodes := Table.put s.nodes n d }
/-- The state with a node changed. -/
def State.updNode (s : State) (n : NodeId) (f : Node → Node) : State := s.setNode n (f (s.node n))

/-- A command on a node of one of the kinds given; any other operand names no such unit. -/
def onNode (ks : List Kind) (n : NodeId) (s : State) (f : State → State) : Res :=
  if nodeExists n && ks.contains (kindOf n) then .next (f s) else .fault .noSuchUnit

/-- A change of one node. -/
def nodeOnly (ks : List Kind) (n : NodeId) (s : State) (f : Node → Node) : Res :=
  onNode ks n s (fun s => s.updNode n f)

/-- Program fault codes (R109, R149, R207, R257, R315). -/
def isProgram (code : Nat) : Bool := decide (1 ≤ code ∧ code ≤ 0x0D) || decide (0x19 ≤ code ∧ code ≤ 0x1D)

/-- A fault word common to MC_FAULT, VC_FAULT and LN_FAULT: VALID, PROGRAM, CODE and the kind's own fields. -/
def faultWord (code : Nat) (fs : List (Nat × Nat)) : U64 :=
  mkWord 64 ((63, 1) :: (8, b2n (isProgram code)) :: (0, code) :: fs)

/-- A fault recorded at a node: the registers take it unless one is already recorded (R151 VALID), the step is vetoed and issue stops.
`hist` is what the warden remembers of each fault. -/
def Node.raiseWith (nd : Node) (code : Nat) (fs : List (Nat × Nat)) (loc : U64) (tag : Nat) : Node :=
  { nd with
    fault := if bit nd.fault 63 then nd.fault else faultWord code fs
    faultLoc := if bit nd.fault 63 then nd.faultLoc else loc
    halted := true
    pat := { nd.pat with veto := true }
    hist := nd.hist ++ [(code, nd.pat.current.toNat, tag)] }

/-- A V or F core's fault: PC is the faulting instruction's index (R151). -/
def Node.raiseV (nd : Node) (code : Nat) (loc : U64) (tag : Nat) : Node :=
  nd.raiseWith code [(16, nd.core.pc.toNat)] loc tag
/-- An M core's fault: command index and group (R110). -/
def Node.raiseM (nd : Node) (code idx g : Nat) (loc : U64) (tag : Nat) : Node :=
  nd.raiseWith code [(16, idx % 65536), (9, g % 4)] loc tag
/-- An L node's fault: stream endpoint and bobbin entry (R316). -/
def Node.raiseL (nd : Node) (code ep : Nat) (entry : Option Nat) (loc : U64) : Node :=
  nd.raiseWith code ((32, ep % 256) :: (match entry with | some e => [(20, e % 4096), (19, 1)] | none => [])) loc 0

/-- A fault raised at a node on no instruction's behalf (a deposit, a broken channel). -/
def raiseAt (n : NodeId) (nd : Node) (code ep : Nat) (tag : Nat) : Node :=
  match kindOf n with
  | .m => nd.raiseM code (match nd.mc.window with | c :: _ => c.idx | [] => nd.mc.fetch) 0 0 tag
  | .l => nd.raiseL code ep none 0
  | _ => nd.raiseV code 0 tag

/-- The node may issue: it runs, has no recorded stop, and is neither held, fenced, resetting nor parked. -/
def Node.live (nd : Node) : Bool := !nd.fenced && !nd.resetting && !nd.parked && !nd.halted && !nd.pat.held

/-- The 4 KiB slots of [a, a+n) (R168). -/
def slotsOf (a n : Nat) : List Nat := if n = 0 then [] else rangeFrom (a / 4096) ((a + n - 1) / 4096 - a / 4096 + 1)
/-- The lines of [a, a+n) (R153). -/
def linesOf (a n : Nat) : List Nat := if n = 0 then [] else rangeFrom (a / 64) ((a + n - 1) / 64 - a / 64 + 1)

/-- A line's 64 bytes: zeros when it is invalid (R164). -/
def Pad.line (p : Pad) (l : Nat) : List Byte :=
  if p.valid.contains l then p.bytes.bytes (64 * l) 64 else List.replicate 64 0

/-- n bytes from address a as a read sees them (R164). -/
def Pad.read (p : Pad) (a n : Nat) : List Byte :=
  (((linesOf a n).flatMap p.line).drop (a % 64)).take n

/-- The first tagged slot of the range that is not filled (R171). -/
def Pad.unfilled (p : Pad) (a n : Nat) : Option Nat :=
  (slotsOf a n).find? (fun k => p.tagged.getLsbD k && !p.filled.getLsbD k)
/-- The first tagged slot of the range that is filled (R171). -/
def Pad.undrained (p : Pad) (a n : Nat) : Option Nat :=
  (slotsOf a n).find? (fun k => p.tagged.getLsbD k && p.filled.getLsbD k)

/-- The first bad word of a valid line that the range reads (R159). -/
def Pad.badWord (p : Pad) (a n : Nat) : Option Nat :=
  p.bad.find? (fun w => decide (a < 4 * w + 4) && decide (4 * w < a + n) && p.valid.contains (w / 16))

/-- Bytes stored at address a: the lines become valid, what they held of an invalid line becomes zero, and parity is made anew (R159, R164). -/
def Pad.write (p : Pad) (a : Nat) (bs : List Byte) : Pad :=
  let ls := linesOf a bs.length
  let fresh := ls.filter (fun l => !p.valid.contains l)
  let zeroed := fresh.foldl (fun m l => Memory.zero m (64 * l) 64) p.bytes
  { p with
    bytes := zeroed.write a bs
    valid := ls.foldl setIns p.valid
    bad := p.bad.filter (fun w => !(decide (a < 4 * w + 4) && decide (4 * w < a + bs.length)) && !fresh.contains (w / 16)) }

/-- FILLED set on slots (R169). -/
def Pad.fill (p : Pad) (ks : List Nat) : Pad := { p with filled := ks.foldl (fun b k => setBits b k 1 true) p.filled }
/-- FILLED cleared on slots (R170). -/
def Pad.unfill (p : Pad) (ks : List Nat) : Pad := { p with filled := ks.foldl (fun b k => setBits b k 1 false) p.filled }

/-- Physical row of an address within its owner bank (R154), and PAD_PARITY_LOC for a word (R208). -/
def parityLocWord (n : NodeId) (w : Nat) : U64 :=
  let a := 4 * w
  let pad := if kindOf n = .m then (if a < 0x1800000 then 0 else if a < 0x2800000 then 1 else 2) else 0
  mkWord 64 [(63, 1), (30, pad), (24, a / 0x100000), (14, (a / 1024) % 1024), (10, (a / 64) % 16), (6, (a / 4) % 16)]

/-- FILL_FAULT_LOC (R208). -/
def fillLocWord (n : NodeId) (slot : Nat) (write : Bool) : U64 :=
  let pad := if kindOf n = .m then (if slot < 6144 then 0 else if slot < 10240 then 1 else 2) else 0
  mkWord 64 [(63, 1), (30, pad), (29, b2n write), (0, slot)]

/-- What a checked access found. -/
inductive Access where
  | ok
  /-- The fault code to raise: 0x09, 0x0A or 0x13. -/
  | stop (code : Nat) (tag : Nat)
  deriving DecidableEq, Repr

/-- A narrow read's checks: fill tags (R171, R172), then parity (R160). A struck word is one whose cells a physical cause upset. -/
def padReadCheck (n : NodeId) (p : Pad) (a len : Nat) (struck : Option Nat) : Pad × Access :=
  let p := match struck with
    | some w => if p.valid.contains (w / 16) then { p with bad := setIns p.bad w } else p
    | none => p
  match (if p.checked then p.unfilled a len else none) with
  | some k => ({ p with fillFaultLoc := if bit p.fillFaultLoc 63 then p.fillFaultLoc else fillLocWord n k false }, .stop 0x09 0)
  | none =>
    let p := if (p.unfilled a len).isSome then { p with rbfUnchecked := satAdd p.rbfUnchecked 1 } else p
    match p.badWord a len with
    | some w => ({ p with parityLoc := if bit p.parityLoc 63 then p.parityLoc else parityLocWord n w,
                          parityErrors := satAdd p.parityErrors 1 }, .stop 0x13 (w / 256))
    | none => (p, .ok)

/-- A write's fill-tag check (R171, R172). -/
def padWriteCheck (n : NodeId) (p : Pad) (a len : Nat) : Pad × Access :=
  match p.undrained a len with
  | some k =>
    if p.checked then
      ({ p with fillFaultLoc := if bit p.fillFaultLoc 63 then p.fillFaultLoc else fillLocWord n k true }, .stop 0x0A 0)
    else ({ p with obdUnchecked := satAdd p.obdUnchecked 1 }, .ok)
  | none => (p, .ok)

/-- The pattern slot image that a node's slot holds. -/
def Pat.image (p : Pat) (k : Nat) : Memory := Table.get [] p.slots k
/-- An n-byte field of a slot header (R213). -/
def Pat.hdr (p : Pat) (k off n : Nat) : Nat := (p.image k).num off n
/-- CTAG and HOME of a slot (R213 CONF). -/
def Pat.slotCtag (p : Pat) (k : Nat) : Nat := p.hdr k 3 1 % 4
def Pat.slotHome (p : Pat) (k : Nat) : Bool := (p.hdr k 3 1 / 4) % 2 == 1
def Pat.progLen (p : Pat) (k : Nat) : Nat := p.hdr k 10 2
def Pat.entry (p : Pat) (k : Nat) : Nat := p.hdr k 8 2
/-- The 128-bit descriptor of an endpoint in a slot's channel map (R176). -/
def Pat.inDesc (p : Pat) (k ep : Nat) : U128 := BitVec.ofNat 128 ((p.image k).num (p.hdr k 14 2 + 16 * ep) 16)
def Pat.outDesc (p : Pat) (k ep : Nat) : U128 := BitVec.ofNat 128 ((p.image k).num (p.hdr k 14 2 + 1024 + 16 * ep) 16)

/-- Fields of an input descriptor (R176). -/
def inMode (d : U128) : Nat := fld d 103 102
def inSize (d : U128) : Nat := fld d 75 63
def inBase (d : U128) : Nat := fld d 88 76
def inPad (d : U128) : Nat := fld d 90 89
def inMaxrec (d : U128) : Nat := fld d 98 91
def inCtag (d : U128) : Nat := fld d 100 99
def inLetout (d : U128) : Bool := bit d 101
/-- Fields of an output descriptor (R177). -/
def outMode (d : U128) : Nat := fld d 103 102
def outSize (d : U128) : Nat := fld d 74 62
def outMaxrec (d : U128) : Nat := fld d 82 75
def outCtag (d : U128) : Nat := fld d 84 83

/-- The window address where an input endpoint's ring or window starts (R176). -/
def inStart (n : NodeId) (d : U128) : Nat := (padRange n (inPad d)).1 + 4096 * inBase d
/-- Ring or window bytes. -/
def inBytes (d : U128) : Nat := 4096 * inSize d

def Node.inEp (nd : Node) (e : Nat) : Ep := Table.get {} nd.ins e
def Node.outEp (nd : Node) (e : Nat) : Ep := Table.get {} nd.outs e
def Node.setIn (nd : Node) (e : Nat) (x : Ep) : Node := { nd with ins := Table.put nd.ins e x }
def Node.setOut (nd : Node) (e : Nat) (x : Ep) : Node := { nd with outs := Table.put nd.outs e x }
def Node.updIn (nd : Node) (e : Nat) (f : Ep → Ep) : Node := nd.setIn e (f (nd.inEp e))
def Node.updOut (nd : Node) (e : Nat) (f : Ep → Ep) : Node := nd.setOut e (f (nd.outEp e))

/-- The machine's next free value (log 1). -/
def State.takeFree (s : State) : Nat × State := (s.free, { s with free := s.free + 1 })

end Sys2Proof.Machine
end

