-- ==== Sys2Proof/Machine/Net.lean ====
section
/-! DEFINITION. Packets: route headers, injection, replies and arrival (R361 to R371, R390). -/

namespace Sys2Proof.Machine
open Sys2Proof

/-- Packet types (R362). -/
abbrev tyRecord : Nat := 0x01
abbrev tyCredit : Nat := 0x02
abbrev tyKnot : Nat := 0x03
abbrev tyNack : Nat := 0x04
abbrev tyStep : Nat := 0x05
abbrev tyReadReq : Nat := 0x08
abbrev tyWriteReq : Nat := 0x09
abbrev tyReadResp : Nat := 0x0A
abbrev tyWriteAck : Nat := 0x0B
abbrev tyMgmt : Nat := 0x10
abbrev tyLoad : Nat := 0x11
abbrev tyRelay : Nat := 0x20
/-- Types that R362 does not reserve. -/
def typeKnown (t : Nat) : Bool := [0x01, 0x02, 0x03, 0x04, 0x05, 0x08, 0x09, 0x0A, 0x0B, 0x10, 0x11, 0x20].contains t
/-- CLASS of a type (R362): 0 control, 1 request, 2 response, 3 stream. -/
def typeClass (t : Nat) : Nat :=
  if t = 0x08 ∨ t = 0x09 then 1 else if t = 0x0A ∨ t = 0x0B then 2 else if t = 0x01 ∨ t = 0x11 ∨ t = 0x20 then 3 else 0

/-- Fields of a route header (R361). -/
def rtDst (r : U128) : NodeId := nodeAt (fld r 127 120) (fld r 119 112)
def rtSrc (r : U128) : NodeId := nodeAt (fld r 111 104) (fld r 103 96)
def rtWay (r : U128) : NodeId := nodeAt (fld r 95 88) (fld r 87 80)
def rtWayEn (r : U128) : Bool := bit r 79
def rtLeg (r : U128) : Bool := bit r 78
def rtClass (r : U128) : Nat := fld r 77 76
def rtExit (r : U128) : Nat := fld r 75 74
def rtMcast (r : U128) : Bool := bit r 73
def rtFlits (r : U128) : Nat := fld r 72 68
def rtOwner (r : U128) : Nat := fld r 67 63
def rtTclass (r : U128) : Nat := fld r 62 59
def rtType (r : U128) : Nat := fld r 58 51

/-- A waypoint: present, x, y. -/
structure Way where
  en : Bool := false
  x : Nat := 0
  y : Nat := 0
  deriving DecidableEq, Repr

/-- Where a packet leaves the mesh: the router and EXIT (R361). -/
structure Dest where
  at' : NodeId
  exit : Nat := 0
  deriving DecidableEq, Repr

/-- A route header (R361). -/
def mkRoute (src : NodeId) (d : Dest) (w : Way) (ty tclass owner flits : Nat) : U128 :=
  mkWord 128 [(120, nx d.at'), (112, ny d.at'), (104, nx src), (96, ny src), (88, w.x), (80, w.y), (79, b2n w.en), (76, typeClass ty),
    (74, d.exit), (68, flits), (63, owner), (59, tclass), (51, ty)]

def State.router (s : State) (r : NodeId) : Router := Table.get {} s.routers r
def State.updRouter (s : State) (r : NodeId) (f : Router → Router) : State := { s with routers := Table.put s.routers r (f (s.router r)) }

/-- Data flits of n bytes (R355). -/
def flitsOf (n : Nat) : Nat := (n + 511) / 512

/-- A packet put into the fabric at a router. -/
def inject (s : State) (at' : NodeId) (route pay : U128) (data : List Byte) : State :=
  { s with flight := s.flight ++ [⟨s.nextPid, route, pay, data, at', none, false, portLocal⟩], nextPid := s.nextPid + 1 }

/-- The waypoint of a packet that is no record: the source's first valid detour entry for its destination and owner (R370). -/
def detourWay (s : State) (src : NodeId) (dst : NodeId) (owner : Nat) : Way :=
  match List.find? (fun (e : Nat × U64) => bit e.2 63 && nodeAt (fld e.2 62 55) (fld e.2 54 47) == dst && fld e.2 30 26 == owner) (s.router src).detour with
  | some e => ⟨true, fld e.2 46 39, fld e.2 38 31⟩
  | none => {}

/-- A packet other than a record sent from a node or hem router by its detour table (R370). -/
def sendPacket (s : State) (src : NodeId) (d : Dest) (ty tclass owner : Nat) (pay : U128) (data : List Byte) : State :=
  inject s src (mkRoute src d (detourWay s src d.at' owner) ty tclass owner (flitsOf data.length)) pay data

/-- A reply takes the waypoint of the packet it answers (R371). -/
def sendReply (s : State) (src : NodeId) (d : Dest) (req : U128) (ty : Nat) (pay : U128) (data : List Byte) : State :=
  inject s src (mkRoute src d ⟨rtWayEn req, nx (rtWay req), ny (rtWay req)⟩ ty (rtTclass req) (rtOwner req) (flitsOf data.length)) pay data

/-- The port k of a Host hem that serves a node, through the host port map (R541). -/
def hostPort (s : State) (n : NodeId) (b : Bool) : Nat :=
  let k := min 7 (nx n - 24)
  fld (s.router n).hostMap ((if b then 32 else 0) + 3 * k + 2) ((if b then 32 else 0) + 3 * k)
/-- A Host hem as a node addresses it: hem A at y = 0, hem B at y = 47, EXIT 1 (R541). -/
def hostDest (s : State) (n : NodeId) (b : Bool) : Dest := ⟨nodeAt (24 + hostPort s n b) (if b then 47 else 0), 1⟩

/-- The place a delivered packet's EXIT names at its destination router; none when no such port is there (R373). -/
def exitPlace (r : NodeId) (exit : Nat) : Option Place :=
  let hem (port : Nat) : Option Place :=
    match hemAt r port with
    | some (h, _) => if hemKind h = .blank then none else some (.hem h)
    | none => none
  match exit with
  | 0 => some (.node r)
  | 1 => (hem portS).or (hem portN)
  | 2 => (hem portW).or (hem portE)
  | _ => none

/-- Where the answer to a packet goes: its source node, or, for a request that a hem sent (TCLASS 3 Host, 4 and 5 Spakan), back out of
the boundary port of its source router (R541, log 15). -/
def answerDest (route : U128) : Dest :=
  let r := rtSrc route
  if rtTclass route = 3 ∨ rtTclass route = 4 ∨ rtTclass route = 5 then
    ⟨r, if ny r = 0 ∨ ny r = 47 then 1 else 2⟩
  else ⟨r, 0⟩

/-- NACK payload (R363). -/
def nackPay (code rtype ep seq : Nat) (at' : NodeId) : U128 :=
  mkWord 128 [(124, code), (116, rtype), (108, ep), (92, seq), (84, nx at'), (76, ny at')]

/-- The endpoint and SEQ that a NACK reports for a refused packet: a record's sending endpoint and SEQ, a credit's returning endpoint (R363). -/
def nackFor (p : Packet) : Nat × Nat :=
  if rtType p.route = tyRecord then (fld p.pay 111 104, fld p.pay 127 112)
  else if rtType p.route = tyCredit then (fld p.pay 119 112, 0)
  else (0, 0)

/-- A NACK from a router for a packet it refuses (R363, R371, R395). -/
def sendNack (s : State) (r : NodeId) (p : Packet) (code : Nat) : State :=
  let e := nackFor p
  let s := s.updRouter r (fun x => { x with nacksSent := satAdd x.nacksSent 1 })
  sendReply s r (answerDest p.route) p.route tyNack (nackPay code (rtType p.route) e.1 e.2 r) []

/-- Memory descriptor fields (R364). -/
def mdAddr (p : U128) : Nat := fld p 127 80
def mdTag (p : U128) : Nat := fld p 79 64
def mdLen (p : U128) : Nat := fld p 63 50
def mdStatus (p : U128) : Nat := fld p 49 42
def memDesc (addr tag len status : Nat) : U128 := mkWord 128 [(80, addr), (64, tag), (50, len), (42, status)]

/-- The answer of R390 to a packet that cannot reach its node: zero data with STATUS 0x1B, a FENCED knot reply, or a NACK of a code. -/
def answerRefused (s : State) (r : NodeId) (p : Packet) (code : Nat) : State :=
  let ty := rtType p.route
  if rtMcast p.route then s
  else if ty = tyReadReq then
    sendReply s r (answerDest p.route) p.route tyReadResp (memDesc (mdAddr p.pay) (mdTag p.pay) (mdLen p.pay) 0x1B) (List.replicate (mdLen p.pay) 0)
  else if ty = tyWriteReq then sendReply s r (answerDest p.route) p.route tyWriteAck (memDesc (mdAddr p.pay) (mdTag p.pay) (mdLen p.pay) 0x1B) []
  else if ty = tyKnot then
    if fld p.pay 127 124 = 8 then s
    else
      sendReply s r (answerDest p.route) p.route tyKnot
        (BitVec.ofNat 128 ((setFld (setFld p.pay 127 124 8) 79 72 3).toNat)) []
  else if [tyRecord, tyCredit, tyStep, tyMgmt].contains ty then sendNack s r p code
  else s

/-- The first packet delivered at a place that p holds of, and the state without it; an aborted packet is discarded there (R391). -/
def takeArrival (s : State) (at' : Place) (p : Packet → Bool) : Option (Packet × State) :=
  (takeFirst (fun k : Packet => k.out == some at' && p k) s.flight).map (fun r => (r.1, { s with flight := r.2 }))
/-- A whole packet of a type that has arrived. -/
def takeType (s : State) (at' : Place) (ty : Nat) : Option (Packet × State) :=
  takeArrival s at' (fun k => rtType k.route == ty && !k.aborted)

/-- A place that exists. -/
def placeOk : Place → Bool
  | .node n => nodeExists n
  | .hem h => decide (h < 26) && hemKind h != .blank

/-- A command about an arrival at a place. -/
def onPlace (at' : Place) (s : State) (f : State → State) : Res := if placeOk at' then .next (f s) else .fault .noSuchUnit

/-- STEP payload (R363): SUB 1 STEP_COMMIT, 2 SEAM_ORDER, 3 TIMING, 4 STOP. -/
def stepPay (sub part step : Nat) : U128 := mkWord 128 [(124, sub), (120, part), (88, step)]
def isStepSub (sub : Nat) (k : Packet) : Bool := rtType k.route == tyStep && fld k.pay 127 124 == sub && !k.aborted

/-- Knot payload (R204). -/
def knotPay (op part knot ticket : Nat) (req : NodeId) (status value count : Nat) : U128 :=
  mkWord 128 [(124, op), (120, part), (104, knot), (96, ticket), (88, nx req), (80, ny req), (72, status), (32, value), (0, count)]

end Sys2Proof.Machine
end

