-- ==== Sys2Proof/Machine/Mod.lean ====
section
/-! DEFINITION. Access to partitions, panels, hems and logs, and the small operations that many commands share. -/

namespace Sys2Proof.Machine
open Sys2Proof

def State.part (s : State) (p : Nat) : Partition := Table.get {} s.parts p
def State.setPart (s : State) (p : Nat) (x : Partition) : State := { s with parts := Table.put s.parts p x }
def State.updPart (s : State) (p : Nat) (f : Partition → Partition) : State := s.setPart p (f (s.part p))
def State.panel (s : State) (p : Nat) : Panel := Table.get {} s.panels p
def State.updPanel (s : State) (p : Nat) (f : Panel → Panel) : State := { s with panels := Table.put s.panels p (f (s.panel p)) }
/-- Objects of a partition in a configuration set. -/
def ConfigSet.part (c : ConfigSet) (p : Nat) : PartCfg := Table.get {} c.parts p
def ConfigSet.updPart (c : ConfigSet) (p : Nat) (f : PartCfg → PartCfg) : ConfigSet := { c with parts := Table.put c.parts p (f (c.part p)) }
/-- A partition's active objects (R244). -/
def State.cfg (s : State) (p : Nat) : PartCfg := s.stw.d.active.part p
def State.updDict (s : State) (f : Dict → Dict) : State := { s with stw := { s.stw with d := f s.stw.d } }
def State.updFaults (s : State) (f : Faults → Faults) : State := { s with stw := { s.stw with f := f s.stw.f } }

/-- Key domain and protected bit (R528 PARTITION_DOMAIN). -/
def PartCfg.dom (c : PartCfg) : Nat := c.domain.toNat % 32
def PartCfg.prot (c : PartCfg) : Bool := bit c.domain 7
/-- A partition exists when it names a cluster (R516). -/
def PartCfg.defined (c : PartCfg) : Bool := c.clusters != 0
/-- Clusters of a partition. -/
def PartCfg.clusterList (c : PartCfg) : List Nat := (List.range 168).filter (fun k => c.clusters.getLsbD k)
/-- Nodes of a partition's clusters, by index. -/
def PartCfg.nodes (c : PartCfg) : List NodeId := allNodes.filter (fun n => c.clusters.getLsbD (clusterOf n))
/-- L node indices of a partition, ascending: stripe set 0 (R267). -/
def PartCfg.lnodes (c : PartCfg) : List Nat := (List.range 252).filter (fun i => c.clusters.getLsbD (clusterOf (lNode i)))
/-- Members of a stripe set (R267). -/
def PartCfg.stripe (c : PartCfg) (k : Nat) : List Nat := if k = 0 then c.lnodes else nth [] c.stripes (k - 1)

/-- The active Host hem (R560). -/
def State.hem (s : State) : HostHem := if s.stw.hostB then s.hemB else s.hemA
def State.updHem (s : State) (f : HostHem → HostHem) : State :=
  if s.stw.hostB then { s with hemB := f s.hemB } else { s with hemA := f s.hemA }
def HostHem.fn (h : HostHem) (f : Nat) : HostFn := Table.get {} h.fns f
def HostHem.updFn (h : HostHem) (f : Nat) (g : HostFn → HostFn) : HostHem := { h with fns := Table.put h.fns f (g (h.fn f)) }

/-- A fault map entry (R412). -/
def State.entry (s : State) (n : NodeId) : MapEntry := Table.get {} s.stw.f.map n
/-- A node in state GOOD. -/
def State.good (s : State) (n : NodeId) : Bool := (s.entry n).state == 0

/-- One update of the fault map: the entries change together and carry the new generation (R413, R414). -/
def State.updMap (s : State) (ns : List NodeId) (flash : Bool) (f : NodeId → MapEntry → MapEntry) : State :=
  s.updFaults (fun q =>
    let g := (q.gen + 1) % 2 ^ 32
    { q with
      gen := g
      dirty := q.dirty || flash
      map := ns.foldl (fun m n => Table.put m n { f n (Table.get {} m n) with genLow := g % 65536 }) q.map })

/-- A record appended to the fault log, the oldest beyond 4,096 dropped (R436, R438). -/
def State.log (s : State) (e : FaultEvent) : State :=
  s.updFaults (fun q => { q with log := (q.log ++ [e]).drop (q.log.length - 4095), seq := q.seq + 1 })

/-- CTRL_COUNT of a panel: the model's clock less the panel's offset to Host hem A (R642, R643). -/
def State.stamp (s : State) (panel : Nat) : Nat := ((s.clock : Int) - (s.panel panel).offset).toNat

/-- A fault log record about a node (R436). -/
def State.eventAt (s : State) (kind code : Nat) (n : NodeId) : FaultEvent :=
  let pt := (s.node n).part
  { gen := 0, step := match pt with | some _ => (s.node n).pat.current.toNat | none => 0xFFFFFFFF, kind := kind, code := code,
    x := nx n, y := ny n, part := pt.getD 0xFF, port := 0xFF,
    placement := match pt with | some p => (s.part p).pl.placement | none => 0xFFFF, stamp := s.stamp (panelOf n), panel := panelOf n }
/-- A fault log record about a partition (R436). -/
def State.eventFor (s : State) (kind code p : Nat) : FaultEvent :=
  { gen := 0, step := ((s.part p).committed + 1).toNat, kind := kind, code := code, x := nx stewardNode, y := ny stewardNode, part := p,
    port := 0xFF, placement := (s.part p).pl.placement, stamp := s.stamp 3, panel := 3 }

/-- A journal entry goes to the standby before the change is answered (R434). -/
def State.journalled (s : State) : State := { s with stw := { s.stw with journal := s.stw.journal + 1 } }

/-- An MSI-X vector raised on a function of the active hem (R534). -/
def State.raiseVector (s : State) (f v : Nat) : State := s.updHem (fun h => h.updFn f (fun x => { x with raised := x.raised ++ [v] }))

/-- Node ids of the placed region of a partition. -/
def State.region (s : State) (p : Nat) : List NodeId := (s.part p).pl.region

/-- Control cycles in a microsecond are 450 (R638). -/
def usCycles (us : Nat) : Nat := 450 * us
def msCycles (ms : Nat) : Nat := 450000 * ms

/-- Where the steward's packets go: the node that acts as steward (R22, R434). -/
def State.stewardAt (s : State) : NodeId := if s.stw.standbyActs then standbyNode else stewardNode

end Sys2Proof.Machine
end

