-- ==== Sys2Proof/Machine/Router.lean ====
section
/-! DEFINITION. Routers: ports, forwarding, multicast, budgets and telemetry (R352 to R395). -/

namespace Sys2Proof.Machine
open Sys2Proof

def Router.port (x : Router) (p : Nat) : Port := Table.get {} x.ports p
def Router.updPort (x : Router) (p : Nat) (f : Port → Port) : Router := { x with ports := Table.put x.ports p (f (x.port p)) }
def State.updPort (s : State) (r : NodeId) (p : Nat) (f : Port → Port) : State := s.updRouter r (fun x => x.updPort p f)

/-- Ports that lead somewhere: a neighbour, a hem, or the node (R352, R355). -/
def portLeads (r : NodeId) (p : Nat) : Bool := p == portLocal || (neighbour r p).isSome || (hemAt r p).isSome
/-- A router port exists. -/
def portOk (r : NodeId) (p : Nat) : Bool := nodeExists r && decide (p < 5)
/-- A router with a boundary port (R355). -/
def isBoundary (r : NodeId) : Bool := nx r == 0 || nx r == 55 || ny r == 0 || ny r == 47

/-- Input buffer depth in flits (R354). -/
def bufDepth (r : NodeId) (p vc : Nat) : Nat :=
  (if vc < 2 then 4 else 20) * (if p = portLocal ∧ (kindOf r = .m ∨ kindOf r = .l) then 2 else 1)

/-- A hold of the links of a panel stops those with an end in it (R386). -/
def heldLink (s : State) (r : NodeId) (p : Nat) : Bool :=
  (s.panel (panelOf r)).linkHold || (match neighbour r p with | some q => (s.panel (panelOf q)).linkHold | none => false)

/-- The virtual channel of a route header (R366). -/
def rtVc (h : U128) : Nat := 2 * rtClass h + b2n (rtLeg h)

/-- The output port by dimension order toward a target, x first (R369). -/
def dimPort (r t : NodeId) : Nat :=
  if nx r < nx t then portE else if nx t < nx r then portW else if ny r < ny t then portN else portS

/-- The answer of R392 to a packet that meets a down port. -/
def answerLinkDown (s : State) (r : NodeId) (p : Packet) : State := if rtType p.route = tyKnot then s else answerRefused s r p 4

/-- A packet taken out of the fabric. -/
def dropPacket (s : State) (pid : Nat) : State := { s with flight := s.flight.filter (fun k => k.id != pid) }
/-- A packet in the fabric changed. -/
def updPacket (s : State) (pid : Nat) (f : Packet → Packet) : State := { s with flight := s.flight.map (fun k => if k.id = pid then f k else k) }

/-- Buffer space of the router that a packet leaves. -/
def freeBuffer (s : State) (p : Packet) (n : Nat) : State :=
  s.updPort p.at' p.via (fun x => { x with fill := Table.put x.fill (rtVc p.route) (Table.get 0 x.fill (rtVc p.route) - n) })

/-- Whether a port may send n flits of a packet now (R357, R358, R367): replay buffer, the receiver's room, budget tokens. -/
def maySend (s : State) (r : NodeId) (port : Nat) (h : U128) (n : Nat) : Bool :=
  let x := (s.router r).port port
  let b : Budget := Table.get {} x.budgets (Table.get 0 (s.router r).map (16 * rtOwner h + rtTclass h))
  decide (x.replay.length + n ≤ 32) && decide (Table.get 0 x.used (rtVc h) + n ≤ bufDepth ((neighbour r port).getD r) (oppPort port) (rtVc h)) &&
  (rtClass h == 0 || !b.hard || decide (n ≤ b.tokens))

/-- A port sends n flits of a packet: FSEQs, replay buffer, room, tokens and counters (R356 to R358, R379, R380, R395). -/
def portSend (s : State) (r : NodeId) (port pid : Nat) (h : U128) (n : Nat) : State :=
  let vc := rtVc h
  s.updRouter r (fun x =>
    let c := Table.get 0 x.map (16 * rtOwner h + rtTclass h)
    let sent := Table.get 0 x.ctrlSent port
    let x := x.updPort port (fun q =>
      { q with
        txSeq := (q.txSeq + n) % 256
        replay := q.replay ++ (List.range n).map (fun i => (⟨(q.txSeq + i) % 256, pid, vc, 0⟩ : SentFlit))
        used := Table.put q.used vc (Table.get 0 q.used vc + n)
        budgets := if rtClass h = 0 then q.budgets else
          Table.put q.budgets c (let b : Budget := Table.get {} q.budgets c; { b with tokens := b.tokens - n })
        flits := if isBoundary r then Table.put q.flits vc (satAdd (Table.get 0 q.flits vc) n) else q.flits
        packets := if isBoundary r then satAdd q.packets 1 else q.packets })
    if rtClass h = 0 then
      { x with ctrlSent := Table.put x.ctrlSent port (sent + n),
               ctrlOver := if sent ≤ 204 ∧ 204 < sent + n then satAdd x.ctrlOver 1 else x.ctrlOver }
    else x)

/-- A packet moved to the next router (R369). -/
def arriveAt (s : State) (pid : Nat) (q : NodeId) (port vc n : Nat) : State :=
  let s := updPacket s pid (fun k => { k with at' := q, via := port })
  s.updPort q port (fun x =>
    let d := Table.get 0 x.fill vc + n
    { x with fill := Table.put x.fill vc d, maxDepth := if isBoundary q then Table.put x.maxDepth vc (max d (Table.get 0 x.maxDepth vc)) else x.maxDepth })

/-- The router's local port: a fenced, resetting or parked node's packets are absorbed and answered (R387, R390). -/
def deliverLocal (s : State) (p : Packet) : State :=
  let r := p.at'
  let nd := s.node r
  if nd.fenced || nd.resetting || nd.parked then
    let s := s.updRouter r (fun x => { x with fencedAbsorbed := satAdd x.fencedAbsorbed 1 })
    answerRefused (dropPacket s p.id) r p (if nd.fenced then 1 else if nd.resetting then 2 else 5)
  else updPacket s p.id (fun k => { k with out := some (.node r) })

/-- Another packet of the same order ahead of this one in the same router (R378). -/
def behindOther (s : State) (p : Packet) : Bool :=
  (s.flight.takeWhile (fun k => k.id != p.id)).any (fun k => k.at' == p.at' && k.out.isNone && rtClass k.route == rtClass p.route &&
    rtSrc k.route == rtSrc p.route && rtMcast k.route == rtMcast p.route &&
    (rtMcast p.route || (rtDst k.route == rtDst p.route && rtExit k.route == rtExit p.route && rtWayEn k.route == rtWayEn p.route && rtWay k.route == rtWay p.route)))

/-- A unicast packet's next hop (R362, R366 to R373, R385 to R392): the whole packet moves one router at a time (log 16). -/
def forwardPacket (s : State) (p : Packet) : State :=
  let r := p.at'
  let rt := s.router r
  let bad (s : State) : State := s.updRouter r (fun x => { x with badPackets := satAdd x.badPackets 1 })
  if rt.dead then dropPacket s p.id
  else if !typeKnown (rtType p.route) then bad (dropPacket s p.id)
  else
    let route := if rtWayEn p.route && !rtLeg p.route && rtWay p.route == r then setFld p.route 78 78 1 else p.route
    let n := 1 + rtFlits route
    let target := if rtWayEn route && !rtLeg route then rtWay route else rtDst route
    let s := updPacket s p.id (fun k => { k with route := route })
    let p := { p with route := route }
    let down (s : State) : State :=
      answerLinkDown ((dropPacket s p.id).updRouter r (fun x => { x with linkdownDiscards := satAdd x.linkdownDiscards 1 })) r p
    if target = r then
      if rtExit route = 0 then freeBuffer (deliverLocal s p) p n
      else
        let port := if rtExit route = 1 then (if (hemAt r portS).isSome then portS else portN) else (if (hemAt r portW).isSome then portW else portE)
        match exitPlace r (rtExit route) with
        | none => sendNack (bad (freeBuffer (dropPacket s p.id) p n)) r p 4
        | some place =>
          if (rt.port port).state ≠ 1 then down (freeBuffer s p n)
          else if heldLink s r port || !maySend s r port route n then s
          else portSend (freeBuffer (updPacket s p.id (fun k => { k with out := some place })) p n) r port p.id route n
    else
      let port := dimPort r target
      match neighbour r port with
      | none => bad (freeBuffer (dropPacket s p.id) p n)
      | some q =>
        if (rt.port port).state ≠ 1 then down (freeBuffer s p n)
        else if heldLink s r port || !maySend s r port route n then s
        else arriveAt (portSend (freeBuffer s p n) r port p.id route n) p.id q (oppPort port) (rtVc route) n

/-- PACKET_FORWARD (R369): a packet that waits behind another of its order stays. -/
def execPacketForward (pid : Nat) (s : State) : Res :=
  .next (
    match s.flight.find? (fun k => k.id == pid) with
    | none => s
    | some p => if p.out.isSome || rtMcast p.route || behindOther s p then s else forwardPacket s p)

/-- Routers reached from r by n hops through a port, r itself first; a dead router or a port that is not UP ends the way (R375, R392). -/
def walk (s : State) (r : NodeId) (port : Nat) : Nat → List NodeId
  | 0 => [r]
  | n + 1 =>
    match neighbour r port with
    | some q => if ((s.router r).port port).state = 1 ∧ !(s.router q).dead then r :: walk s q port n else [r]
    | none => [r]

/-- Routers a multicast reaches within its rectangle (R375): along the source row, then north and south. -/
def mcastReach (s : State) (r : NodeId) (x0 x1 y0 y1 : Nat) : List NodeId :=
  let row := walk s r portE (x1 - nx r) ++ (walk s r portW (nx r - x0)).drop 1
  let cols := row.filter (fun q => decide (x0 ≤ nx q) && decide (nx q ≤ x1))
  let all := cols.flatMap (fun q => walk s q portN (y1 - ny q) ++ (walk s q portS (ny q - y0)).drop 1)
  all.filter (fun q => decide (y0 ≤ ny q) && decide (ny q ≤ y1))

/-- A multicast's copies delivered to the nodes of its OWNER in its rectangle; no NACK answers one (R375, R376, R390). -/
def multicast (s : State) (p : Packet) : State :=
  let s0 := dropPacket s p.id
  let f (hi lo : Nat) := fld p.route hi lo
  if (s.router p.at').dead then s0
  else if !typeKnown (rtType p.route) then s0.updRouter p.at' (fun x => { x with badPackets := satAdd x.badPackets 1 })
  else
    (mcastReach s p.at' (f 50 45) (f 44 39) (f 38 33) (f 32 27)).foldl (fun s q =>
      let nd := s.node q
      if !(rtOwner p.route == 16 || nd.part == some (rtOwner p.route)) then s
      else if nd.fenced || nd.resetting || nd.parked then s.updRouter q (fun x => { x with fencedAbsorbed := satAdd x.fencedAbsorbed 1 })
      else { s with flight := s.flight ++ [{ p with id := s.nextPid, at' := q, out := some (.node q), via := portLocal }], nextPid := s.nextPid + 1 }) s0

/-- MULTICAST_FORWARD (R375, R376). -/
def execMulticastForward (pid : Nat) (s : State) : Res :=
  .next (
    match s.flight.find? (fun k => k.id == pid) with
    | none => s
    | some p => if p.out.isSome || !rtMcast p.route || behindOther s p then s else multicast s p)

/-- A single-flit multicast from a node over a rectangle (R375). -/
def sendMulticast (s : State) (n : NodeId) (rc : Rect) (ty tclass owner : Nat) (pay : U128) : State :=
  inject s n (mkWord 128 [(104, nx n), (96, ny n), (76, typeClass ty), (73, 1), (63, owner), (59, tclass), (51, ty), (45, rc.x0), (39, rc.x1), (33, rc.y0),
    (27, rc.y1)]) pay []

/-- The budget class of an activity (R381). -/
def budgetClass (acts : List Activity) (owner tclass : Nat) : Nat :=
  match acts.findIdx? (fun a => a.owner == owner && a.tclass == tclass) with
  | some i => min i 7
  | none => 7
/-- RT_MAP and the RATE, CAP and HARD of the classes of a committed map (R381). -/
def budgetMap (acts : List Activity) : Table Nat :=
  (List.range 272).map (fun k => (k, budgetClass acts (k / 16) (k % 16)))
def budgetOf (acts : List Activity) (c : Nat) : Nat × Nat × Bool :=
  match acts[c]? with
  | some a => (a.rate, a.cap, a.hard)
  | none => (0, 0, false)

/-- Another panel slower than this one across a port: the 2:1 seam's fast side (R384, R385). -/
def facesSlow (s : State) (r : NodeId) (p : Nat) : Bool :=
  match neighbour r p with
  | some q => (s.panel (panelOf r)).fabric == 8 && (s.panel (panelOf q)).fabric == 16
  | none => false

/-- The tokens of a port's classes at a window's start (R379, R385). -/
def refill (committed : Bool) (acts : List Activity) (slow : Bool) (bs : Table Budget) : Table Budget :=
  (List.range 8).foldl (fun bs c =>
    let b : Budget := Table.get {} bs c
    let a := budgetOf acts c
    let b := if committed then { b with rate := a.1, cap := a.2.1, hard := a.2.2 } else b
    let h := if slow then 2 else 1
    Table.put bs c { b with tokens := min (b.tokens + b.rate / h) (b.cap / h) }) bs

/-- A 4,096-cycle window begins (R379, R380, R382, R385): a committed map is taken, tokens are added, control slots count anew. -/
def execBudgetWindowStart (r : NodeId) (s : State) : Res :=
  if !nodeExists r then .fault .noSuchUnit
  else
    let acts := s.stw.d.active.activities
    .next (s.updRouter r (fun x =>
      let x := { x with ctrlSent := [], map := if s.stw.d.gen = 0 then x.map else budgetMap acts }
      (List.range 5).foldl (fun x p => x.updPort p (fun q =>
        { q with budgets := refill (s.stw.d.gen != 0) acts (facesSlow s r p) q.budgets })) x))

/-- Level of a virtual channel from the window's sum of samples (R393). -/
def congLevel (r : NodeId) (w p vc sum : Nat) : Nat := if w = 0 then 0 else min 15 (16 * sum / (w * bufDepth r p vc))

/-- A telemetry window ends in a panel (R393, R394): the routers record their levels from the sums of samples, the warden sends the record.
STAMP is FAB_COUNT, 4 × CTRL_COUNT (R642). -/
def execTelemetryWindowEnd (panel : Nat) (sums : List (NodeId × List Nat)) (s : State) : Res :=
  if 42 ≤ panel ∨ sums.any (fun x => !nodeExists x.1 || panelOf x.1 != panel) then .fault .noSuchUnit
  else
    .next (
      let level (r : NodeId) (p v : Nat) : Nat :=
        match List.find? (fun (x : NodeId × List Nat) => x.1 == r) sums with
        | some x => congLevel r (s.router r).window p v (nth 0 x.2 (8 * p + v))
        | none => 0
      let ns := panelNodes panel
      let s1 := ns.foldl (fun s r => s.updRouter r (fun x => (List.range 5).foldl (fun x p => x.updPort p (fun q =>
        { q with cong := (List.range 8).map (fun v => (v, level r p v)) })) x)) s
      let pn := s.panel panel
      let rec' := [BitVec.ofNat 8 panel, BitVec.ofNat 8 (if pn.fabricChanged then 0 else pn.fabric), 0, 0] ++ leBytes 4 pn.wseq ++
        leBytes 8 (4 * s.stamp panel) ++
        ns.flatMap (fun r => (List.range 20).map (fun i => BitVec.ofNat 8 (level r (i / 4) (2 * i % 8) + 16 * level r (i / 4) (2 * i % 8 + 1))))
      let s2 := s1.updPanel panel (fun x => { x with wseq := (x.wseq + 1) % 2 ^ 32, record := rec', fabricChanged := false })
      if pn.wseq % max 1 s.stw.decimation = 0 then { s2 with stw := { s2.stw with congestion := Table.put s2.stw.congestion panel rec' } } else s2)

/-- The hold of a fabric divider change ends (R386). -/
def execLinkHoldEnd (panel : Nat) (s : State) : Res :=
  if 42 ≤ panel then .fault .noSuchUnit else .next (s.updPanel panel (fun x => { x with linkHold := false }))

/-- A port that has sent nothing for 64 fabric cycles sends a NULL flit (R357). -/
def execNullKeepalive (r : NodeId) (port : Nat) (s : State) : Res :=
  if !portOk r port then .fault .noSuchUnit
  else .next (if ((s.router r).port port).state = 1 ∧ !heldLink s r port then s.updPort r port (fun x => { x with nulls := x.nulls + 1 }) else s)

end Sys2Proof.Machine
end

