-- ==== Sys2Proof/Machine/Fence.lean ====
section
/-! DEFINITION. The wardens: links going down, fencing, spare rows, and fault notification (R161, R162, R360, R391, R399, R407, R418 to R420,
R674). -/

namespace Sys2Proof.Machine
open Sys2Proof

/-- A fault event on its way to both stewards (R399): its record carries the generation it made, or 0. -/
def State.note (s : State) (e : FaultEvent) (changed : Bool) (n : NodeId) (fenced : Bool) : State :=
  s.updFaults (fun q => { q with notes := q.notes ++ [⟨{ e with gen := if changed then q.gen else 0 }, n, fenced⟩] })

/-- A node's work in flight and posted knot operations discarded, its sequencer stopped (R418 item 1). -/
def Node.discard (nd : Node) : Node :=
  { nd with
    core := { nd.core with run := false, blocked := none, posted := [], retry := none }
    mc := { nd.mc with run := false, window := [], flights := [], drains := [], groups := [], planes := [], ftqUsed := 0, maskUsed := 0, shadow := false }
    ln := { nd.ln with outbox := [], promos := [], demos := [] } }

/-- A node fenced by its warden (R418), with a fault code; `hw` counts it as a recorded hardware fault. -/
def fenceNode (s : State) (n : NodeId) (code : Nat) (hw : Bool) : State :=
  if (s.node n).fenced then s
  else
    let e := s.eventAt 2 code n
    let s := s.updNode n (fun d => { d.discard with fenced := true })
    let s := s.updMap [n] true (fun _ x => { x with state := 1, code := code, faults := if hw then min 65535 (x.faults + 1) else x.faults })
    s.note e true n true

/-- Ports of a hem that are UP (R674). -/
def hemUp (s : State) (h : Nat) : List Nat := (List.range 8).filter (fun k => let x := hemRouter h k; ((s.router x.1).port x.2).state == 1)
/-- The host port map entry of k over the UP ports: the nearest, the lower of two (R674). -/
def nearestUp (ups : List Nat) (k : Nat) : Nat :=
  let dist (j : Nat) : Nat := if j < k then k - j else j - k
  match ups.foldl (fun (b : Option Nat) j => match b with | none => some j | some c => if dist j < dist c then some j else some c) none with
  | some j => j
  | none => k
/-- The fabric manager rewrites a Host hem's port map in every router, while one of its ports is UP (R674). -/
def remapHost (s : State) (h : Nat) : State :=
  let ups := hemUp s h
  if ups.isEmpty then s
  else
    let base := if h = 3 then 0 else 32
    let m (old : U64) : U64 :=
      (List.range 8).foldl (fun m k => setFld m (base + 3 * k + 2) (base + 3 * k) (if ups.contains k then k else nearestUp ups k)) old
    allNodes.foldl (fun s r => s.updRouter r (fun x => { x with hostMap := m x.hostMap })) s

/-- A router's boundary ports that face a Host hem have gone down: its map follows (R674). -/
def remapFor (s : State) (r : NodeId) : State :=
  [portN, portE, portS, portW].foldl (fun s p => match hemAt r p with | some (h, _) => if hemKind h = .host then remapHost s h else s | none => s) s

/-- A router fenced (R420): its five ports DOWN and its node fenced with it. -/
def fenceRouter (s : State) (r : NodeId) (code : Nat) : State :=
  if (s.router r).dead then s
  else
    let e := s.eventAt 3 code r
    let s := s.updRouter r (fun x => { x with dead := true, ports := (List.range 5).foldl (fun t p => Table.put t p { x.port p with state := 0 }) x.ports })
    let s := s.updNode r (fun d => { d.discard with fenced := true })
    let s := remapFor { s with flight := s.flight.filter (fun k => !(k.at' == r && k.out.isNone)) } r
    let s := s.updMap [r] true (fun _ x => { x with state := 1, router := 1, code := code, faults := min 65535 (x.faults + 1) })
    s.note e true r true

/-- Mesh ports of a router that are not UP, terminated ones left out (R407). -/
def downPorts (s : State) (r : NodeId) : Nat := ([portN, portE, portS, portW].filter (fun p => (neighbour r p).isSome && ((s.router r).port p).state != 1)).length

/-- A link goes down at one end (R360, R391): the port reads DOWN, its replay buffer is lost, and a packet cut in its input carries an abort
marker. A lost Host hem port makes the fabric manager rewrite the host port map. -/
def linkDown (s : State) (r : NodeId) (port : Nat) : State :=
  let q := (s.router r).port port
  if q.state ≠ 1 then s
  else
    let cut := q.openPkt.map (·.2)
    let s := s.updRouter r (fun x =>
      { x.updPort port (fun q => { q with state := 0, replay := [], nakked := false, openPkt := [], used := [], downs := q.downs ++ [s.clock] }) with
        abortedPackets := satAdd x.abortedPackets cut.length })
    let s := cut.foldl (fun s pid => updPacket s pid (fun k => { k with aborted := true })) s
    match hemAt r port with
    | some (h, _) => if hemKind h = .host then remapHost s h else s
    | none => s

/-- Spare rows of an owner bank still free (R154, R162). -/
def spareRowsLeft (p : Pad) (bank : Nat) : Nat := 8 - (p.retired.filter (fun r => r.1 == bank)).length - Table.get 0 p.badSpares bank

/-- A physical row retired to a spare of its bank, its contents and stored parity copied (R161); with no spare free the node is fenced with
PAD_SPARES (R162). `row` counts 1 KiB rows from the window's start. -/
def retireRow (s : State) (n : NodeId) (row : Nat) : State :=
  let bank := row / 1024
  let p := (s.node n).pad
  if p.retired.contains (bank, row % 1024) then s
  else if spareRowsLeft p bank = 0 then fenceNode s n 0x17 true
  else
    let e := s.eventAt 6 0x13 n
    let s := s.updNode n (fun d => { d with pad := { d.pad with retired := d.pad.retired ++ [(bank, row % 1024)], rowsRetired := satAdd d.pad.rowsRetired 1 } })
    let s := s.updMap [n] true (fun _ x => { x with repairs := min 255 (x.repairs + 1) })
    s.note e true n false

/-- A hardware fault of the same kind within any 64 consecutive steps (R129, R148, R161, R407). -/
def repeated64 (before : List (Nat × Nat × Nat)) (code step tag : Nat) (sameTag : Bool) : Bool :=
  before.any (fun h => h.1 == code && decide (step < h.2.1 + 64) && (!sameTag || h.2.2 == tag))

/-- The warden's handling of a node's recorded fault (R399, R407): map, thresholds, event. -/
def notifyNode (s : State) (n : NodeId) : State :=
  let nd := s.node n
  match nd.hist[nd.told]? with
  | none => s
  | some (code, step, tag) =>
    let before := nd.hist.take nd.told
    let s := s.updNode n (fun d => { d with told := d.told + 1 })
    if isProgram code then s.note (s.eventAt 1 code n) false n false
    else
      let fence := (code == 0x12 && repeated64 before code step tag false) || (code == 0x15 && repeated64 before code step tag true) ||
        (code == 0x16 && repeated64 before code step tag true) || (code == 0x23 && repeated64 before code step tag false)
      if fence then fenceNode s n code true
      else
        let e := s.eventAt 1 code n
        let s := s.updMap [n] false (fun _ x => { x with code := code, faults := min 65535 (x.faults + 1) })
        let s := s.note e true n false
        if code == 0x13 && repeated64 before code step tag true then retireRow s n tag else s

/-- The warden's handling of a router parity error (R402, R407): a second in 3,600 s fences the router. -/
def notifyParity (s : State) (r : NodeId) : State :=
  let again := s.stw.f.parityAt.any (fun x => x.1 == r && decide (s.clock < x.2 + 3600 * msCycles 1000))
  let s := s.updFaults (fun q => { q with parityAt := q.parityAt ++ [(r, s.clock)] })
  if again then fenceRouter s r 0x22
  else
    let e := s.eventAt 1 0x22 r
    let s := s.updMap [r] false (fun _ x => { x with code := 0x22, faults := min 65535 (x.faults + 1) })
    s.note e true r false

/-- The warden's handling of a down link (R360, R407): the map shows it, and two or more down mesh ports fence the router. -/
def notifyLink (s : State) (r : NodeId) (port : Nat) : State :=
  if ((s.router r).port port).state ≠ 0 then s
  else
    let e := { s.eventAt 4 0x00 r with port := port }
    let s := if port < 4 then s.updMap [r] false (fun _ x => { x with links := Table.put x.links port 1 }) else s
    let s := s.note e (decide (port < 4)) r false
    if 2 ≤ downPorts s r && !(s.router r).dead then fenceRouter s r 0x00 else s

/-- FAULT_NOTIFICATION (R399): a warden is told of a node's recorded fault, a router's parity error or a down link. -/
def execFaultNotification (c : FaultCause) (s : State) : Res :=
  match c with
  | .node n => if nodeExists n then .next (notifyNode s n) else .fault .noSuchUnit
  | .routerParity r => if nodeExists r then .next (notifyParity s r) else .fault .noSuchUnit
  | .link r port => if portOk r port && portLeads r port then .next (notifyLink s r port) else .fault .noSuchUnit

end Sys2Proof.Machine
end

