-- ==== Sys2Proof/Machine/Formats.lean ====
section
/-! DEFINITION. Number formats (chapter 2): decoding, exact arithmetic on dyadic values, and the one rounding per format. -/

namespace Sys2Proof

/-- A decoded value: NaN, an infinity, or ±m × 2^e exactly (a zero keeps its sign). -/
inductive Num where
  | nan
  | inf (neg : Bool)
  | fin (neg : Bool) (m : Nat) (e : Int)
  deriving DecidableEq, Repr

/-- The encodings of R33; `mxint8` is the INT8 integer × 2^-6. -/
inductive Fmt where
  | e2m1 | e2m3 | e3m2 | e4m3 | e5m2 | int8 | mxint8 | fp16 | bf16 | fp32 | int16 | int32 | uint8 | uint16 | uint32
  deriving DecidableEq, Repr

/-- What the all-ones exponent means in a floating-point format (R34). -/
inductive Top where
  | ieee | onlyNan | none
  deriving DecidableEq, Repr

/-- A floating-point format: exponent width, mantissa width, bias, meaning of the top exponent (R34). -/
structure FpFmt where
  eb : Nat
  mb : Nat
  bias : Nat
  top : Top
  deriving DecidableEq, Repr

/-- R34's table; an integer format has none. -/
def Fmt.fp : Fmt → Option FpFmt
  | .e2m1 => some ⟨2, 1, 1, .none⟩
  | .e2m3 => some ⟨2, 3, 1, .none⟩
  | .e3m2 => some ⟨3, 2, 3, .none⟩
  | .e4m3 => some ⟨4, 3, 7, .onlyNan⟩
  | .e5m2 => some ⟨5, 2, 15, .ieee⟩
  | .fp16 => some ⟨5, 10, 15, .ieee⟩
  | .bf16 => some ⟨8, 7, 127, .ieee⟩
  | .fp32 => some ⟨8, 23, 127, .ieee⟩
  | _ => none

/-- Element width in bits (R33). -/
def Fmt.width : Fmt → Nat
  | .e2m1 => 4
  | .e2m3 | .e3m2 => 6
  | .e4m3 | .e5m2 | .int8 | .mxint8 | .uint8 => 8
  | .fp16 | .bf16 | .int16 | .uint16 => 16
  | .fp32 | .int32 | .uint32 => 32

/-- Signed and unsigned integer formats. -/
def Fmt.isInt : Fmt → Bool
  | .int8 | .int16 | .int32 | .uint8 | .uint16 | .uint32 => true
  | _ => false

/-- The least value of an integer format (R682). -/
def Fmt.intMin : Fmt → Int
  | .int8 | .mxint8 => -128
  | .int16 => -32768
  | .int32 => -2147483648
  | _ => 0

/-- The largest value of an integer format (R682). -/
def Fmt.intMax : Fmt → Int
  | .int8 | .mxint8 => 127
  | .int16 => 32767
  | .int32 => 2147483647
  | .uint8 => 255
  | .uint16 => 65535
  | .uint32 => 4294967295
  | _ => 0

/-- Canonical NaN code of a format (R53); 0 for an integer. -/
def Fmt.nanCode : Fmt → Nat
  | .fp32 => 0x7FC00000
  | .bf16 => 0x7FC0
  | .fp16 => 0x7E00
  | .e5m2 | .e4m3 => 0x7F
  | _ => 0

/-- A value from an Int: i × 2^e. -/
def Num.ofInt (i : Int) (e : Int) : Num := .fin (decide (i < 0)) i.natAbs e

/-- The value that a code of a format stands for (R34). -/
def decodeFp (f : FpFmt) (c : Nat) : Num :=
  let neg := (c >>> (f.eb + f.mb)) % 2 == 1
  let E := (c >>> f.mb) % 2 ^ f.eb
  let M := c % 2 ^ f.mb
  let ones := 2 ^ f.eb - 1
  if f.top = .ieee && E == ones then (if M = 0 then .inf neg else .nan)
  else if f.top = .onlyNan && E == ones && M == 2 ^ f.mb - 1 then .nan
  else if E = 0 then .fin neg M (1 - (f.bias : Int) - f.mb)
  else .fin neg (2 ^ f.mb + M) ((E : Int) - f.bias - f.mb)

/-- The value of an element of any format. -/
def decodeNum (f : Fmt) (c : Nat) : Num :=
  match f.fp with
  | some p => decodeFp p c
  | none =>
    match f with
    | .mxint8 => Num.ofInt (sgn 8 c) (-6)
    | .int8 => Num.ofInt (sgn 8 c) 0
    | .int16 => Num.ofInt (sgn 16 c) 0
    | .int32 => Num.ofInt (sgn 32 c) 0
    | f => .fin false (c % 2 ^ f.width) 0

/-- How a conversion rounds: to nearest even, or stochastically with a 16-bit draw (R57). -/
inductive Rounding where
  | rne
  | sr (u : Nat)
  deriving DecidableEq, Repr

/-- m / 2^sh rounded to an integer (R51, R57). -/
def roundShift (r : Rounding) (m sh : Nat) : Nat :=
  let n := m >>> sh
  let rem := m % 2 ^ sh
  match r with
  | .rne => if 2 * rem > 2 ^ sh then n + 1 else if 2 * rem = 2 ^ sh ∧ sh ≠ 0 then n + n % 2 else n
  | .sr u => if u < (rem * 65536) >>> sh then n + 1 else n

/-- m × 2^e rounded to a multiple of 2^q, as that multiple. -/
def roundAt (r : Rounding) (m : Nat) (e q : Int) : Nat :=
  if q ≤ e then m <<< (e - q).toNat else roundShift r m (q - e).toNat

/-- The largest finite magnitude code of a format (R34). -/
def FpFmt.maxCode (f : FpFmt) : Nat :=
  match f.top with
  | .ieee => ((2 ^ f.eb - 1) <<< f.mb) - 1
  | .onlyNan => 2 ^ (f.eb + f.mb) - 2
  | .none => 2 ^ (f.eb + f.mb) - 1

/-- The magnitude code of m × 2^e (m nonzero), possibly past maxCode when it overflows. -/
def magCode (f : FpFmt) (r : Rounding) (m : Nat) (e : Int) : Nat :=
  let qmin : Int := 1 - (f.bias : Int) - f.mb
  let q := max ((m.log2 : Int) + e - f.mb) qmin
  ((q - qmin).toNat <<< f.mb) + roundAt r m e q

/-- The value of a magnitude code is below m × 2^e. -/
def aboveMax (f : FpFmt) (m : Nat) (e : Int) : Bool :=
  match decodeFp f f.maxCode with
  | .fin _ M E => if E ≤ e then decide (M < m <<< (e - E).toNat) else decide (M <<< (E - e).toNat < m)
  | _ => false

/-- The result of one rounding to a format: its code, and whether a finite value overflowed. -/
structure Rounded where
  code : Nat
  ovf : Bool
  deriving DecidableEq, Repr

/-- A value rounded to a floating-point format (R51, R52, R53, R56, R57). A format without infinities takes ±max for them. -/
def encodeFp (f : FpFmt) (nanCode : Nat) (sat : Bool) (r : Rounding) (v : Num) : Rounded :=
  let sgnBit (neg : Bool) := b2n neg <<< (f.eb + f.mb)
  let infCode (neg : Bool) := sgnBit neg + (if f.top = .ieee then f.maxCode + 1 else f.maxCode)
  match v with
  | .nan => ⟨nanCode, false⟩
  | .inf neg => ⟨infCode neg, false⟩
  | .fin neg m e =>
    if m = 0 then ⟨sgnBit neg, false⟩
    else
      let r' := if aboveMax f m e then .rne else r
      let c := magCode f r' m e
      if c > f.maxCode then ⟨if sat then sgnBit neg + f.maxCode else infCode neg, true⟩
      else ⟨sgnBit neg + c, false⟩

/-- A value rounded to an integer and saturated (R53, R682): the integer and whether a finite value saturated. -/
def encodeInt (lo hi : Int) (r : Rounding) (v : Num) : Int × Bool :=
  match v with
  | .nan => (0, false)
  | .inf neg => (if neg then lo else hi, false)
  | .fin neg m e =>
    let n := roundAt r m e 0
    let i : Int := if neg then -(n : Int) else n
    if i < lo then (lo, true) else if hi < i then (hi, true) else (i, false)

/-- An integer as a w-bit code. -/
def intCode (w : Nat) (i : Int) : Nat := (i % 2 ^ w).toNat

/-- v × 2^k. -/
def Num.scale (v : Num) (k : Int) : Num :=
  match v with
  | .fin s m e => .fin s m (e + k)
  | v => v

/-- A value rounded to any format. -/
def encodeNum (f : Fmt) (sat : Bool) (r : Rounding) (v : Num) : Rounded :=
  match f.fp with
  | some p => encodeFp p f.nanCode sat r v
  | none =>
    let v := if f = .mxint8 then v.scale 6 else v
    let x := encodeInt f.intMin f.intMax r v
    ⟨intCode f.width x.1, x.2⟩

/-- FP32 value of a code. -/
def f32 (c : Nat) : Num := decodeFp ⟨8, 23, 127, .ieee⟩ c

/-- The FP32 code of a value, to nearest even (R55). -/
def toF32 (v : Num) : Nat := (encodeFp ⟨8, 23, 127, .ieee⟩ 0x7FC00000 false .rne v).code

/-- The finite value as a signed multiple of 2^q, exact when q is not above its exponent. -/
def signedAt (neg : Bool) (m : Nat) (e q : Int) : Int :=
  let n : Int := ((m <<< (e - q).toNat : Nat) : Int)
  if neg then -n else n

/-- The exact sum; the sum of opposite values is +0, of two negative zeros -0. -/
def Num.add : Num → Num → Num
  | .nan, _ | _, .nan => .nan
  | .inf a, .inf b => if a = b then .inf a else .nan
  | .inf a, _ => .inf a
  | _, .inf b => .inf b
  | .fin sa ma ea, .fin sb mb eb =>
    let q := min ea eb
    let s := signedAt sa ma ea q + signedAt sb mb eb q
    if s = 0 then .fin (sa && sb) 0 q else Num.ofInt s q

/-- The value negated. -/
def Num.neg : Num → Num
  | .nan => .nan
  | .inf a => .inf (!a)
  | .fin s m e => .fin (!s) m e

/-- The exact product; infinity times zero is NaN. -/
def Num.mul : Num → Num → Num
  | .nan, _ | _, .nan => .nan
  | .inf a, .inf b => .inf (a != b)
  | .inf a, .fin s m _ => if m = 0 then .nan else .inf (a != s)
  | .fin s m _, .inf b => if m = 0 then .nan else .inf (s != b)
  | .fin sa ma ea, .fin sb mb eb => .fin (sa != sb) (ma * mb) (ea + eb)

/-- Order of two values that are not NaN; zeros are equal. -/
def Num.lt : Num → Num → Bool
  | .nan, _ | _, .nan => false
  | .inf a, .inf b => a && !b
  | .inf a, _ => a
  | _, .inf b => !b
  | .fin sa ma ea, .fin sb mb eb =>
    let q := min ea eb
    decide (signedAt sa ma ea q < signedAt sb mb eb q)

/-- Equality of two values; NaN equals nothing, the zeros are equal. -/
def Num.eq (a b : Num) : Bool :=
  match a, b with
  | .nan, _ | _, .nan => false
  | a, b => !(a.lt b) && !(b.lt a)

/-- The kinds of value. -/
def Num.isNan : Num → Bool | .nan => true | _ => false
def Num.isNegInf : Num → Bool | .inf s => s | _ => false
def Num.isPosInf : Num → Bool | .inf s => !s | _ => false
def Num.isNegZero : Num → Bool | .fin s m _ => s && m == 0 | _ => false

/-- floor(log2 |v|) of a nonzero finite value. -/
def Num.ilog : Num → Option Int
  | .fin _ m e => if m = 0 then none else some ((m.log2 : Int) + e)
  | _ => none

/-- emax of R54. -/
def Fmt.emax : Fmt → Int
  | .e2m1 | .e2m3 => 2
  | .e3m2 => 4
  | .e4m3 => 8
  | .e5m2 => 15
  | _ => 0

/-- An MX block (R54): the shared scale byte and the element codes. `draw i` is the rounding of element i. -/
def mxBlock (f : Fmt) (draw : Nat → Rounding) (vs : List Num) : Nat × List Nat :=
  let bad := vs.any (fun v => match v with | .nan => true | .inf _ => true | _ => false)
  if bad then (0xFF, vs.map (fun _ => 0))
  else
    match (vs.filterMap Num.ilog).foldl (fun a l => some (match a with | none => l | some x => max x l)) (none : Option Int) with
    | none => (0x7F, vs.map (fun v => (encodeNum f true .rne v).code))
    | some top =>
      let x := max (-127) (min 127 (top - f.emax))
      ((x + 127).toNat, vs.zipIdx.map (fun p => (encodeNum f true (draw p.2) (p.1.scale (-x))).code))

/-- The value of a scaled element (R35, R38): scale byte 0xFF makes every element NaN. -/
def decodeScaled (f : Fmt) (s c : Nat) : Num :=
  if s = 0xFF then .nan else (decodeNum f c).scale ((s : Int) - 127)

end Sys2Proof
end

