-- ==== Sys2Proof/Machine/Operands.lean ====
section
/-! DEFINITION. The fields of a V or F core instruction, element views of tiles and predicates (R112 to R117), and the one frame in which
every such instruction issues (R114, R150, R221, R253). -/

namespace Sys2Proof.Machine
open Sys2Proof

/-- Fields of R114 below CLASS and OP. -/
def vPen (w : VWord) : Bool := bit w 53
def vPred (w : VWord) : Nat := fld w 52 50
def vEt (w : VWord) : Nat := fld w 49 46
def vSat (w : VWord) : Bool := bit w 45
def vRm (w : VWord) : Bool := bit w 44
def vD (w : VWord) : Nat := fld w 43 39
def vA (w : VWord) : Nat := fld w 38 34
def vB (w : VWord) : Nat := fld w 33 29
def vC (w : VWord) : Nat := fld w 28 24
def vImm (w : VWord) : Nat := fld w 23 0
/-- A field of IMM. -/
def vImmF (w : VWord) (hi lo : Nat) : Nat := fld w hi lo

/-- ETYPE codes (R115). -/
def etFmt (et : Nat) : Option Fmt :=
  match et with
  | 0 => some .int32 | 1 => some .uint32 | 2 => some .fp32 | 3 => some .int16 | 4 => some .uint16
  | 5 => some .fp16 | 6 => some .bf16 | 7 => some .int8 | 8 => some .uint8 | _ => none
/-- Element width of an ETYPE (R115). -/
def etW (et : Nat) : Nat := match etFmt et with | some f => f.width | none => 32
def etInt (et : Nat) : Bool := [0, 1, 3, 4, 7, 8].contains et
def etSigned (et : Nat) : Bool := [0, 3, 7].contains et
def etFp (et : Nat) : Bool := [2, 5, 6].contains et
def etAny (et : Nat) : Bool := decide (et < 9)

/-- Register access: a tile field uses its low 4 bits, a predicate field its low 3 (log 9). -/
def Core.tile (c : Core) (i : Nat) : Tile := Table.get 0 c.tiles (i % 16)
def Core.setTile (c : Core) (i : Nat) (t : Tile) : Core := { c with tiles := Table.put c.tiles (i % 16) t }
def Core.scalar (c : Core) (i : Nat) : U64 := Table.get 0 c.scalars i
def Core.setScalar (c : Core) (i : Nat) (v : U64) : Core := { c with scalars := Table.put c.scalars i v }
def Core.pred (c : Core) (i : Nat) : Pred := Table.get 0 c.preds (i % 8)
def Core.setPred (c : Core) (i : Nat) (p : Pred) : Core := { c with preds := Table.put c.preds (i % 8) p }

/-- Elements of a view of width w bits, in row-major order (R112). -/
def elems (w : Nat) (t : Tile) : List Nat := (List.range (32768 / w)).map (fun i => (t.toNat >>> (w * i)) % 2 ^ w)
/-- Codes packed w bits each, the first lowest. -/
def packElems (w : Nat) : List Nat → Nat
  | [] => 0
  | x :: xs => x % 2 ^ w + 2 ^ w * packElems w xs
def tileOf (w : Nat) (l : List Nat) : Tile := BitVec.ofNat 32768 (packElems w l)
/-- The bytes of a tile, and a tile of bytes. -/
def tileBytes (t : Tile) : List Byte := (elems 8 t).map (BitVec.ofNat 8)
def tileOfBytes (b : List Byte) : Tile := tileOf 8 (b.map BitVec.toNat)

/-- Active elements of a view: the bit of each element's lowest byte (R113). -/
def actives (w : Nat) (p : Pred) : List Bool := (List.range (32768 / w)).map (fun i => p.getLsbD (i * (w / 8)))
/-- A predicate tile with every bit of each element's bytes equal (R113). -/
def predOf (w : Nat) (l : List Bool) : Pred :=
  BitVec.ofNat 4096 (packElems (w / 8) (l.map (fun b => if b then 2 ^ (w / 8) - 1 else 0)))

/-- Elements written: all, or with PEN = 1 the active ones (R117). -/
def writeMask (w : Nat) (word : VWord) (c : Core) : List Bool :=
  if vPen word then actives w (c.pred (vPred word)) else (List.range (32768 / w)).map (fun _ => true)

/-- A new destination under a write mask. -/
def maskElems (w : Nat) (m : List Bool) (old : Tile) (new : List Nat) : Tile :=
  tileOf w (List.zipWith (fun (b : Bool) (p : Nat × Nat) => if b then p.2 else p.1) m ((elems w old).zip new))

/-- Tile result written to tD under PEN (R117); `ev` marks elements that count in SAT_EVENTS when written (R121). -/
def writeTile (word : VWord) (w : Nat) (c : Core) (res : List (Nat × Bool)) : Core :=
  let m := writeMask w word c
  let ev := (m.zip res).countP (fun x => x.1 && x.2.2)
  { c.setTile (vD word) (maskElems w m (c.tile (vD word)) (res.map (·.1))) with satEvents := satAdd c.satEvents ev }

/-- What an instruction does when it issues. -/
inductive Issued where
  /-- It completes: the new state, its charge in core cycles (R253), and where the program goes on if not at the next index. -/
  | done (s : State) (charge : Nat) (jump : Option Nat)
  /-- It faults in place of issuing. -/
  | fault (s : State) (code : Nat) (loc : U64) (tag : Nat)
  /-- Issue blocks on it. -/
  | block (s : State) (b : Blocked)

/-- Occupancy of a tile instruction: four times as long in an F core (R119, R130). -/
def tileCharge (n : NodeId) (occ : Nat) : Nat := if kindOf n = .f then 4 * occ else occ

/-- A V or F core may issue: armed and in a step, running, not blocked, and its node live (R151 SEQ_RUN, R404). -/
def Node.canIssue (nd : Node) : Bool := nd.live && nd.core.run && nd.core.blocked.isNone && nd.pat.phase == .inStep

/-- An instruction retires: its charge is added, it is counted, and the program index moves (R111, R253). -/
def Node.retire (nd : Node) (charge : Nat) (jump : Option Nat) : Node :=
  { nd with
    core := { nd.core with
      pc := match jump with | some t => BitVec.ofNat 16 t | none => nd.core.pc + 1
      issueCycles := satAdd nd.core.issueCycles charge
      retired := satAdd nd.core.retired 1
      blocked := none }
    pat := { nd.pat with
      runWork := satAdd nd.pat.runWork charge
      runInstr := satAdd nd.pat.runInstr 1 } }

/-- The outcome of an instruction applied. -/
def finishIssue (n : NodeId) (r : Issued) : State :=
  match r with
  | .done s charge jump => s.updNode n (fun nd => nd.retire charge jump)
  | .fault s code loc tag => s.updNode n (fun nd => nd.raiseV code loc tag)
  | .block s b => s.updNode n (fun nd => { nd with core := { nd.core with blocked := some b } })

/-- The frame of every V and F core instruction: beyond the program's last instruction PATTERN_RANGE (R221), a nonzero reserved field
BAD_OPCODE (R114), an ETYPE not accepted TYPE_CLASS (R116), else its own effect. A core that may not issue is left as it is (log 10). -/
def vIssue (n : NodeId) (s : State) (reservedOk etypeOk : Bool) (f : Node → State → Issued) : Res :=
  onNode [.v, .f] n s (fun s =>
    let nd := s.node n
    if nd.canIssue then
      finishIssue n (
        if nd.pat.progLen nd.pat.active ≤ nd.core.pc.toNat then .fault s 0x1A 0 0
        else if !reservedOk then .fault s 0x04 0 0
        else if !etypeOk then .fault s 0x07 0 0
        else f nd s)
    else s)

/-- An instruction that changes only its core. -/
def coreDone (n : NodeId) (s : State) (charge : Nat) (jump : Option Nat) (f : Core → Core) : Issued :=
  .done (s.updNode n (fun nd => { nd with core := f nd.core })) charge jump

/-- The location word of VC_FAULT_LOC for a residue lane or an FN unit (R151). -/
def laneLoc (lane : Nat) : U64 := mkWord 64 [(13, 1), (5, lane)]
def unitLoc (unit : Nat) : U64 := mkWord 64 [(4, 1), (0, unit)]

/-- Residue lanes: 256 in a V core, 64 in an F core (R151). -/
def laneOk (n : NodeId) (lane : Option Nat) : Bool :=
  match lane with
  | none => true
  | some l => decide (l < (if kindOf n = .f then 64 else 256))

/-- A residue-checked tile instruction (R127, R128): with a failing lane the core records RESIDUE and stops; the destination is not
written then (log 11). -/
def vResidue (n : NodeId) (s : State) (lane : Option Nat) (etypeOk : Bool) (f : Node → State → Issued) : Res :=
  if laneOk n lane then
    vIssue n s true etypeOk (fun nd s =>
      match lane with
      | some l => .fault (s.updNode n (fun nd => { nd with core := { nd.core with residue := satAdd nd.core.residue 1 } })) 0x15 (laneLoc l) l
      | none => f nd s)
  else .fault .noSuchUnit

end Sys2Proof.Machine
end

