-- ==== Sys2Proof/Machine/VecAlu.lean ====
section
/-! DEFINITION. Scalar, tile integer, logic, floating point, conversion, compare, permute and reduction instructions of V and F cores
(R116 to R126, R339, R680 to R682). -/

namespace Sys2Proof.Machine
open Sys2Proof

/-- Scalar instruction sD := f sA sB (R680). -/
def sclOp (n : NodeId) (w : VWord) (s : State) (f : U64 → U64 → U64) : Res :=
  vIssue n s true true (fun nd s => coreDone n s 1 none (fun c => c.setScalar (vD w) (f (nd.core.scalar (vA w)) (nd.core.scalar (vB w)))))

/-- Shift amount: the unsigned low 8 bits (R120, R680). -/
def shAmt {w : Nat} (b : BitVec w) : Nat := b.toNat % 256

def execSclAdd (n : NodeId) (w : VWord) (s : State) : Res := sclOp n w s (fun a b => a + b)
def execSclSub (n : NodeId) (w : VWord) (s : State) : Res := sclOp n w s (fun a b => a - b)
def execSclMul (n : NodeId) (w : VWord) (s : State) : Res := sclOp n w s (fun a b => a * b)
def execSclAnd (n : NodeId) (w : VWord) (s : State) : Res := sclOp n w s (fun a b => a &&& b)
def execSclOr (n : NodeId) (w : VWord) (s : State) : Res := sclOp n w s (fun a b => a ||| b)
def execSclXor (n : NodeId) (w : VWord) (s : State) : Res := sclOp n w s (fun a b => a ^^^ b)
def execSclShl (n : NodeId) (w : VWord) (s : State) : Res := sclOp n w s (fun a b => a <<< shAmt b)
def execSclShr (n : NodeId) (w : VWord) (s : State) : Res := sclOp n w s (fun a b => a >>> shAmt b)
def execSclSra (n : NodeId) (w : VWord) (s : State) : Res := sclOp n w s (fun a b => a.sshiftRight (shAmt b))
/-- MOVI writes IMM sign-extended (R680). -/
def execMovi (n : NodeId) (w : VWord) (s : State) : Res :=
  vIssue n s true true (fun _ s => coreDone n s 1 none (fun c => c.setScalar (vD w) ((BitVec.ofNat 24 (vImm w)).signExtend 64)))
/-- MOVHI writes IMM into bits [47:24] of sD (R680). -/
def execMovhi (n : NodeId) (w : VWord) (s : State) : Res :=
  vIssue n s true true (fun _ s => coreDone n s 1 none (fun c => c.setScalar (vD w) (setFld (c.scalar (vD w)) 47 24 (vImm w))))

/-- The value of an integer element. -/
def elInt (et : Nat) (x : Nat) : Int := if etSigned et then sgn (etW et) x else (x : Int)
/-- The range of an integer ETYPE. -/
def elMin (et : Nat) : Int := if etSigned et then -(2 ^ (etW et - 1)) else 0
def elMax (et : Nat) : Int := if etSigned et then 2 ^ (etW et - 1) - 1 else 2 ^ etW et - 1

/-- An exact integer result wrapped, or clamped and marked when it differs (R120, R121). -/
def fitInt (et : Nat) (sat : Bool) (v : Int) : Nat × Bool :=
  if sat then
    let c := max (elMin et) (min (elMax et) v)
    (intCode (etW et) c, decide (c ≠ v))
  else (intCode (etW et) v, false)

/-- A tile instruction computed element by element from tA, tB and tC. -/
def tileOp (n : NodeId) (w : VWord) (occ : Nat) (f : Nat → Nat → Nat → Nat × Bool) (nd : Node) (s : State) : Issued :=
  let et := vEt w
  let c := nd.core
  let ab := (elems (etW et) (c.tile (vA w))).zip (elems (etW et) (c.tile (vB w)))
  let res := List.zipWith (fun (x : Nat × Nat) z => f x.1 x.2 z) ab (elems (etW et) (c.tile (vC w)))
  coreDone n s (tileCharge n occ) none (fun c => writeTile w (etW et) c res)

/-- A tile integer instruction on values (R120). -/
def tintOp (n : NodeId) (w : VWord) (s : State) (lane : Option Nat) (f : Int → Int → Int → Int) : Res :=
  vResidue n s lane (etInt (vEt w)) (tileOp n w 4 (fun a b c =>
    fitInt (vEt w) (vSat w) (f (elInt (vEt w) a) (elInt (vEt w) b) (elInt (vEt w) c))))

def execTintAdd (n : NodeId) (w : VWord) (lane : Option Nat) (s : State) : Res := tintOp n w s lane (fun a b _ => a + b)
def execTintSub (n : NodeId) (w : VWord) (lane : Option Nat) (s : State) : Res := tintOp n w s lane (fun a b _ => a - b)
def execTintMul (n : NodeId) (w : VWord) (lane : Option Nat) (s : State) : Res := tintOp n w s lane (fun a b _ => a * b)
/-- MULH gives the high w bits and never saturates (R120). -/
def execMulh (n : NodeId) (w : VWord) (lane : Option Nat) (s : State) : Res :=
  vResidue n s lane (etInt (vEt w)) (tileOp n w 4 (fun a b _ =>
    (intCode (etW (vEt w)) ((elInt (vEt w) a * elInt (vEt w) b) / 2 ^ etW (vEt w)), false)))
def execTintAbs (n : NodeId) (w : VWord) (s : State) : Res := tintOp n w s none (fun a _ _ => (a.natAbs : Int))
def execTintNeg (n : NodeId) (w : VWord) (s : State) : Res := tintOp n w s none (fun a _ _ => -a)
def execTintMin (n : NodeId) (w : VWord) (s : State) : Res := tintOp n w s none (fun a b _ => min a b)
def execTintMax (n : NodeId) (w : VWord) (s : State) : Res := tintOp n w s none (fun a b _ => max a b)
def execMac (n : NodeId) (w : VWord) (lane : Option Nat) (s : State) : Res := tintOp n w s lane (fun a b c => a * b + c)

/-- SEL: the selector is PRED and PEN is ignored (R116, R117). -/
def selOp (n : NodeId) (w : VWord) (nd : Node) (s : State) : Issued :=
  let ew := etW (vEt w)
  let c := nd.core
  let res := List.zipWith (fun (p : Bool) (x : Nat × Nat) => if p then x.1 else x.2) (actives ew (c.pred (vPred w)))
    ((elems ew (c.tile (vA w))).zip (elems ew (c.tile (vB w))))
  coreDone n s (tileCharge n 4) none (fun c => c.setTile (vD w) (tileOf ew res))
def execTintSel (n : NodeId) (w : VWord) (s : State) : Res := vIssue n s true (etInt (vEt w)) (selOp n w)
def execTfpSel (n : NodeId) (w : VWord) (s : State) : Res := vIssue n s true (etFp (vEt w)) (selOp n w)

/-- A tile logic instruction on raw elements. -/
def tlogOp (n : NodeId) (w : VWord) (s : State) (f : Nat → Nat → Nat × Bool) : Res :=
  vIssue n s true (etInt (vEt w)) (tileOp n w 4 (fun a b _ => f a b))

def execTlogAnd (n : NodeId) (w : VWord) (s : State) : Res := tlogOp n w s (fun a b => (a &&& b, false))
def execTlogOr (n : NodeId) (w : VWord) (s : State) : Res := tlogOp n w s (fun a b => (a ||| b, false))
def execTlogXor (n : NodeId) (w : VWord) (s : State) : Res := tlogOp n w s (fun a b => (Nat.xor a b, false))
def execTlogNot (n : NodeId) (w : VWord) (s : State) : Res := tlogOp n w s (fun a _ => (2 ^ etW (vEt w) - 1 - a, false))
/-- SHL: low w bits, or clamped when the shifted value does not fit (R120); left shifts are residue-checked (R127). -/
def execTlogShl (n : NodeId) (w : VWord) (lane : Option Nat) (s : State) : Res :=
  vResidue n s lane (etInt (vEt w)) (tileOp n w 4 (fun a b _ =>
    fitInt (vEt w) (vSat w) (elInt (vEt w) a * 2 ^ (b % 256))))
def execTlogShr (n : NodeId) (w : VWord) (s : State) : Res := tlogOp n w s (fun a b => (a >>> (b % 256), false))
/-- SRA of an unsigned type is SHR (R120). -/
def execTlogSra (n : NodeId) (w : VWord) (s : State) : Res :=
  tlogOp n w s (fun a b => (intCode (etW (vEt w)) (elInt (vEt w) a / 2 ^ (b % 256)), false))
/-- x / 2^k to nearest, ties to even (R120). -/
def rneShift (x : Int) (k : Nat) : Int :=
  let q := x / 2 ^ k
  let r := x % 2 ^ k
  if 2 * r > 2 ^ k then q + 1 else if 2 * r = 2 ^ k ∧ k ≠ 0 then q + q % 2 else q
/-- SRAR: 0 when s ≥ w (R120). -/
def execSrar (n : NodeId) (w : VWord) (s : State) : Res :=
  tlogOp n w s (fun a b =>
    let k := b % 256
    (if etW (vEt w) ≤ k then 0 else intCode (etW (vEt w)) (rneShift (elInt (vEt w) a) k), false))

/-- A floating-point element decoded by its ETYPE. -/
def elFp (et : Nat) (x : Nat) : Num := match etFmt et with | some f => decodeNum f x | none => .nan
/-- A value rounded once to its ETYPE (R55, R122). -/
def toEl (et : Nat) (v : Num) : Nat := match etFmt et with | some f => (encodeNum f false .rne v).code | none => 0

/-- A tile floating-point instruction on values, rounded once (R122). -/
def tfpOp (n : NodeId) (w : VWord) (s : State) (lane : Option Nat) (f : Num → Num → Num → Num) : Res :=
  vResidue n s lane (etFp (vEt w)) (tileOp n w 4 (fun a b c =>
    (toEl (vEt w) (f (elFp (vEt w) a) (elFp (vEt w) b) (elFp (vEt w) c)), false)))

/-- MIN and MAX: NaN when either is NaN, and −0 below +0 (R122). -/
def numMin (a b : Num) : Num :=
  match a, b with
  | .nan, _ | _, .nan => .nan
  | a, b => if b.lt a then b else if a.lt b then a else if b.isNegZero then b else a
def numMax (a b : Num) : Num :=
  match a, b with
  | .nan, _ | _, .nan => .nan
  | a, b => if a.lt b then b else if b.lt a then a else if a.isNegZero then b else a

def execTfpAdd (n : NodeId) (w : VWord) (lane : Option Nat) (s : State) : Res := tfpOp n w s lane (fun a b _ => a.add b)
def execTfpSub (n : NodeId) (w : VWord) (lane : Option Nat) (s : State) : Res := tfpOp n w s lane (fun a b _ => a.add b.neg)
def execTfpMul (n : NodeId) (w : VWord) (lane : Option Nat) (s : State) : Res := tfpOp n w s lane (fun a b _ => a.mul b)
/-- FMA rounds once (R55, R122). -/
def execFma (n : NodeId) (w : VWord) (lane : Option Nat) (s : State) : Res := tfpOp n w s lane (fun a b c => (a.mul b).add c)
def execTfpMin (n : NodeId) (w : VWord) (s : State) : Res := tfpOp n w s none (fun a b _ => numMin a b)
def execTfpMax (n : NodeId) (w : VWord) (s : State) : Res := tfpOp n w s none (fun a b _ => numMax a b)
/-- ABS and NEG act on the value; a NaN gives the canonical NaN (R122, log 12). -/
def execTfpAbs (n : NodeId) (w : VWord) (s : State) : Res :=
  tfpOp n w s none (fun a _ _ => match a with | .fin _ m e => .fin false m e | .inf _ => .inf false | .nan => .nan)
def execTfpNeg (n : NodeId) (w : VWord) (s : State) : Res := tfpOp n w s none (fun a _ _ => a.neg)

/-- Format codes of R72; 0xB and 0xC are the unscaled FP8 formats. -/
def fmtOfCode (c : Nat) : Option Fmt :=
  match c with
  | 0x0 => some .e2m1 | 0x1 => some .e2m3 | 0x2 => some .e3m2 | 0x3 => some .e4m3 | 0x4 => some .e5m2 | 0x5 => some .int8
  | 0x6 => some .mxint8 | 0x7 => some .fp16 | 0x8 => some .bf16 | 0x9 => some .fp32 | 0xA => some .int32
  | 0xB => some .e4m3 | 0xC => some .e5m2 | _ => none
/-- The MX codes, which need block scales (R123). -/
def isMxCode (c : Nat) : Bool := decide (c ≤ 4) || c == 6

/-- The draw of R58 for element i of a tensor. -/
def srDraw (key : U64) (tensor step i : Nat) : Nat :=
  ((philox (fld key 31 0) (fld key 63 32) ((i / 4) % 2 ^ 32) (tensor % 2 ^ 32) (step % 2 ^ 32) 0x53520000).getD (i % 4) 0) >>> 16

/-- The rounding a conversion selects for the element at offset i (R56, R58, R123). -/
def cvtRounding (w : VWord) (nd : Node) (i : Nat) : Rounding :=
  if vRm w then
    .sr (srDraw (Table.get 0 nd.pat.srKeys nd.pat.active) (nd.core.scalar (vB w)).toNat nd.pat.current.toNat ((nd.core.scalar (vC w)).toNat + i))
  else .rne

/-- The destination format that CVT's IMM names (R123). -/
def cvtDst (w : VWord) : Option Fmt :=
  let code := vImmF w 3 0
  if bit w 5 then etFmt code else if isMxCode code then none else fmtOfCode code

/-- CVT converts between views by PART (R123). FP32 destinations round to nearest even whatever RM holds (R56). -/
def execCvt (n : NodeId) (w : VWord) (s : State) : Res :=
  vIssue n s (vImmF w 23 8 == 0 && !bit w 4) (etAny (vEt w)) (fun nd s =>
    match etFmt (vEt w), cvtDst w with
    | some src, some dst =>
      let ns := 32768 / src.width
      let ndd := 32768 / dst.width
      let part := vImmF w 7 6
      if (max ns ndd) / (min ns ndd) ≤ part then .fault s 0x07 0 0
      else
        let so := if ndd < ns then part * ndd else 0
        let dO := if ns < ndd then part * ns else 0
        let c := nd.core
        let conv := (((elems src.width (c.tile (vA w))).drop so).take (min ns ndd)).zipIdx.map (fun p =>
          let r := encodeNum dst (vSat w) (if dst = .fp32 then .rne else cvtRounding w nd p.2) (decodeNum src p.1)
          (r.code, vSat w && r.ovf))
        let old := elems dst.width (c.tile (vD w))
        let full := (old.take dO).map (fun x => (x, false)) ++ conv ++ (old.drop (dO + conv.length)).map (fun x => (x, false))
        coreDone n s (tileCharge n 4) none (fun c => writeTile w dst.width c full)
    | _, _ => .fault s 0x07 0 0)

/-- The MX conversion of R123 and R339: blocks of `rows` view rows each share one scale. -/
def cvtmxOp (n : NodeId) (w : VWord) (block : Nat) (nd : Node) (s : State) : Issued :=
  match fmtOfCode (vImmF w 3 0) with
  | some f =>
    let c := nd.core
    let vals := (elems 32 (c.tile (vA w))).map f32
    let bs := (chunks block (1024 / block) vals).zipIdx.map (fun p => mxBlock f (fun i => cvtRounding w nd (block * p.2 + i)) p.1)
    let packed := packElems f.width (bs.flatMap (·.2))
    let nbits := f.width * 1024
    let scales := if block = 1024 then (bs.flatMap (fun b => List.replicate 32 b.1)) else bs.map (·.1)
    coreDone n s (tileCharge n 8) none (fun c =>
      let c := c.setTile (vD w) (BitVec.ofNat 32768 (((c.tile (vD w)).toNat >>> nbits) <<< nbits + packed))
      c.setTile (vC w) (BitVec.ofNat 32768 (((c.tile (vC w)).toNat >>> 256) <<< 256 + packElems 8 scales)))
  | none => .fault s 0x07 0 0

/-- CVTMX (R123); its IMM[4] is 0, the square form is its own row. -/
def execCvtmx (n : NodeId) (w : VWord) (s : State) : Res :=
  if bit w 4 then .fault .otherRow
  else vIssue n s (vImmF w 23 5 == 0) (vEt w == 2 && isMxCode (vImmF w 3 0)) (cvtmxOp n w 32)
/-- The square form of CVTMX: one scale over all 1,024 elements (R339). -/
def execCvtmxSquare (n : NodeId) (w : VWord) (s : State) : Res :=
  if bit w 4 then vIssue n s (vImmF w 23 5 == 0) (vEt w == 2 && isMxCode (vImmF w 3 0)) (cvtmxOp n w 1024)
  else .fault .otherRow

/-- Predicate result written to pD under PEN (R117), for a view of width w. -/
def writePred (word : VWord) (w : Nat) (c : Core) (v : Pred) : Core :=
  let m := predOf w (writeMask w word c)
  c.setPred (vD word) ((v &&& m) ||| (c.pred (vD word) &&& ~~~m))

/-- A compare of integers by value or floating-point elements (R113, R122). -/
def tcmpOp (n : NodeId) (w : VWord) (s : State) (fi : Int → Int → Bool) (ff : Num → Num → Bool) : Res :=
  vIssue n s true (etAny (vEt w)) (fun nd s =>
    let et := vEt w
    let c := nd.core
    let res := List.zipWith (fun a b => if etFp et then ff (elFp et a) (elFp et b) else fi (elInt et a) (elInt et b))
      (elems (etW et) (c.tile (vA w))) (elems (etW et) (c.tile (vB w)))
    coreDone n s (tileCharge n 4) none (fun c => writePred w (etW et) c (predOf (etW et) res)))

def execTcmpEq (n : NodeId) (w : VWord) (s : State) : Res := tcmpOp n w s (fun a b => a == b) Num.eq
/-- NE is true of a NaN operand (R122). -/
def execTcmpNe (n : NodeId) (w : VWord) (s : State) : Res := tcmpOp n w s (fun a b => a != b) (fun a b => !(a.eq b))
def execTcmpLt (n : NodeId) (w : VWord) (s : State) : Res := tcmpOp n w s (fun a b => decide (a < b)) Num.lt
def execTcmpLe (n : NodeId) (w : VWord) (s : State) : Res := tcmpOp n w s (fun a b => decide (a ≤ b)) (fun a b => a.lt b || a.eq b)
def execTcmpGt (n : NodeId) (w : VWord) (s : State) : Res := tcmpOp n w s (fun a b => decide (b < a)) (fun a b => b.lt a)
def execTcmpGe (n : NodeId) (w : VWord) (s : State) : Res := tcmpOp n w s (fun a b => decide (b ≤ a)) (fun a b => b.lt a || a.eq b)

/-- Predicate logic on whole predicate tiles (R116). -/
def predOp (n : NodeId) (w : VWord) (s : State) (f : Pred → Pred → Pred) : Res :=
  vIssue n s true (etAny (vEt w)) (fun nd s =>
    coreDone n s (tileCharge n 4) none (fun c => writePred w (etW (vEt w)) c (f (nd.core.pred (vA w)) (nd.core.pred (vB w)))))
def execPand (n : NodeId) (w : VWord) (s : State) : Res := predOp n w s (fun a b => a &&& b)
def execPor (n : NodeId) (w : VWord) (s : State) : Res := predOp n w s (fun a b => a ||| b)
def execPnot (n : NodeId) (w : VWord) (s : State) : Res := predOp n w s (fun a _ => ~~~a)
/-- POPC (R681). -/
def execPopc (n : NodeId) (w : VWord) (s : State) : Res :=
  vIssue n s true (etAny (vEt w)) (fun nd s =>
    coreDone n s (tileCharge n 4) none (fun c =>
      c.setScalar (vD w) (BitVec.ofNat 64 ((actives (etW (vEt w)) (nd.core.pred (vPred w))).countP id))))

/-- COMPRESS (R125): tD then the count to sB. -/
def execCompress (n : NodeId) (w : VWord) (s : State) : Res :=
  vIssue n s true (etAny (vEt w)) (fun nd s =>
    let ew := etW (vEt w)
    let picked := (((actives ew (nd.core.pred (vPred w))).zip (elems ew (nd.core.tile (vA w)))).filter (·.1)).map (·.2)
    coreDone n s (tileCharge n 8) none (fun c =>
      (c.setTile (vD w) (tileOf ew picked)).setScalar (vB w) (BitVec.ofNat 64 picked.length)))

/-- The elements of tA given out to active positions in order, tC elsewhere (R126). -/
def expandGo : List Bool → List Nat → List Nat → List Nat
  | [], _, _ => []
  | _, _, [] => []
  | true :: ps, a :: as, _ :: cs => a :: expandGo ps as cs
  | true :: ps, [], _ :: cs => 0 :: expandGo ps [] cs
  | false :: ps, as, c :: cs => c :: expandGo ps as cs
def execExpand (n : NodeId) (w : VWord) (s : State) : Res :=
  vIssue n s true (etAny (vEt w)) (fun nd s =>
    let ew := etW (vEt w)
    let act := actives ew (nd.core.pred (vPred w))
    let res := expandGo act (elems ew (nd.core.tile (vA w))) (elems ew (nd.core.tile (vC w)))
    coreDone n s (tileCharge n 8) none (fun c =>
      (c.setTile (vD w) (tileOf ew res)).setScalar (vB w) (BitVec.ofNat 64 (act.countP id))))

/-- TRANS transposes the 32-bit view (R116); its PEN mask is that of the 32-bit view whatever the ETYPE. -/
def execTrans (n : NodeId) (w : VWord) (s : State) : Res :=
  vIssue n s true (etAny (vEt w)) (fun nd s =>
    let a := elems 32 (nd.core.tile (vA w))
    let res := (List.range 1024).map (fun i => (a.getD (32 * (i % 32) + i / 32) 0, false))
    coreDone n s (tileCharge n 4) none (fun c => writeTile w 32 c res))
def execBcast (n : NodeId) (w : VWord) (s : State) : Res :=
  vIssue n s true (etAny (vEt w)) (fun nd s =>
    let ew := etW (vEt w)
    coreDone n s (tileCharge n 4) none (fun c =>
      writeTile w ew c ((List.range (32768 / ew)).map (fun _ => ((nd.core.scalar (vA w)).toNat % 2 ^ ew, false)))))
def execRowb (n : NodeId) (w : VWord) (s : State) : Res :=
  vIssue n s true (etAny (vEt w)) (fun nd s =>
    let ew := etW (vEt w)
    let per := 1024 / ew
    let row := ((elems ew (nd.core.tile (vA w))).drop (per * vImmF w 4 0)).take per
    coreDone n s (tileCharge n 4) none (fun c =>
      writeTile w ew c ((List.range 32).flatMap (fun _ => row.map (fun x => (x, false))))))

/-- One level of the fixed binary tree of R124. -/
def treeLevel {α : Type} (f : α → α → α) : List α → List α
  | a :: b :: t => f a b :: treeLevel f t
  | l => l
/-- A fixed binary tree over a list of at most 2^k elements (R124). -/
def treeFold {α : Type} (f : α → α → α) : Nat → List α → List α
  | 0, l => l
  | k + 1, l => treeFold f k (treeLevel f l)

/-- A row reduction: the result of each view row in its element 0 and zero elsewhere (R124). -/
def tredOp (n : NodeId) (w : VWord) (s : State) (etOk : Bool) (f : (Nat × Bool) → (Nat × Bool) → Nat × Bool) : Res :=
  vIssue n s true etOk (fun nd s =>
    let ew := etW (vEt w)
    let per := 1024 / ew
    let rows := chunks per 32 (elems ew (nd.core.tile (vA w)))
    let res := rows.flatMap (fun r => (treeFold f 7 (r.map (fun x => (x, false)))).take 1 ++ List.replicate (per - 1) (0, false))
    coreDone n s (tileCharge n 4) none (fun c => writeTile w ew c res))

/-- RSUM: any type but an unsigned one with SAT (R116); an integer sum saturates at each level (R124). -/
def execRsum (n : NodeId) (w : VWord) (s : State) : Res :=
  tredOp n w s (etAny (vEt w) && !(vSat w && etInt (vEt w) && !etSigned (vEt w))) (fun a b =>
    if etFp (vEt w) then (toEl (vEt w) ((elFp (vEt w) a.1).add (elFp (vEt w) b.1)), false)
    else let r := fitInt (vEt w) (vSat w) (elInt (vEt w) a.1 + elInt (vEt w) b.1); (r.1, r.2 || a.2 || b.2))
def execRmax (n : NodeId) (w : VWord) (s : State) : Res :=
  tredOp n w s (etAny (vEt w)) (fun a b =>
    if etFp (vEt w) then (toEl (vEt w) (numMax (elFp (vEt w) a.1) (elFp (vEt w) b.1)), false)
    else (intCode (etW (vEt w)) (max (elInt (vEt w) a.1) (elInt (vEt w) b.1)), false))
def execRmin (n : NodeId) (w : VWord) (s : State) : Res :=
  tredOp n w s (etAny (vEt w)) (fun a b =>
    if etFp (vEt w) then (toEl (vEt w) (numMin (elFp (vEt w) a.1) (elFp (vEt w) b.1)), false)
    else (intCode (etW (vEt w)) (min (elInt (vEt w) a.1) (elInt (vEt w) b.1)), false))

end Sys2Proof.Machine
end

