-- ==== Sys2Proof/Machine/MArray.lean ====
section
/-! DEFINITION. The M array's arithmetic: operand blocks in the pads, anchors, terms, checks and the drain conversion (R36 to R54, R66 to R69,
R90 to R93, R99 to R101). -/

namespace Sys2Proof.Machine
open Sys2Proof

/-- Pad units a block of a format occupies (R66). -/
def footprint (code : Nat) : Nat :=
  match fmtOfCode code with
  | some f => if f.width = 4 then 1 else if f.width ≤ 8 then 2 else if f.width = 16 then 4 else 8
  | none => 1
/-- Element bytes of a 32 × 32 block (R677). -/
def blockBytes (code : Nat) : Nat :=
  match fmtOfCode code with
  | some f => f.width * 128
  | none => 0
/-- Codes whose blocks carry scales: the MX formats (R72). -/
def isScaledCode (code : Nat) : Bool := isMxCode code
/-- MX floating-point operand codes, the unscaled FP8 codes among them (R37, R72). -/
def isMxFp (code : Nat) : Bool := decide (code ≤ 4) || code == 0xB || code == 0xC
/-- The operand pairs of R37. -/
def pairOk (a b : Nat) : Bool :=
  (isMxFp a && isMxFp b) || (a == 5 && b == 5) || (a == 6 && b == 6) || ((a == 7 || a == 8) && (b == 7 || b == 8))
/-- Format codes that R72 does not reserve. -/
def fmtCodeOk (c : Nat) : Bool := decide (c < 0xD)
/-- Core cycles per streamed row (R64). -/
def rowInterval (code : Nat) : Nat :=
  match fmtOfCode code with
  | some f => if f.width ≤ 6 then 1 else if f.width = 8 then 2 else 4
  | none => 1

/-- Key of a block in the tag store: W-pad unit, or 49152 + A-pad unit. -/
def tagKey (pad unit : Nat) : Nat := if pad = 0 then unit else 49152 + unit
/-- Window address of a unit of an M pad (R66). -/
def unitAddr (pad unit : Nat) : Nat := mPadBase pad + 512 * unit

/-- The exponent summary of a block of a format (R40). -/
def summaryOf (code : Nat) (scales : List Byte) (codes : List Nat) : Nat :=
  match fmtOfCode code with
  | some .fp16 => (codes.filter (fun c => (c >>> 10) % 32 != 31)).foldl (fun a c => max a (max ((c >>> 10) % 32) 1)) 1
  | some .bf16 => (codes.filter (fun c => (c >>> 7) % 256 != 255)).foldl (fun a c => max a (max ((c >>> 7) % 256) 1)) 1
  | some .int8 => 0x7F
  | some _ => (scales.filter (fun s => s != 0xFF)).foldl (fun a s => max a s.toNat) 0
  | none => 0

/-- The tag of an unwritten block as a pass of a format reads it (R678). -/
def unwrittenTag (code : Nat) : BlockTag :=
  ⟨List.replicate 32 0x7F, BitVec.ofNat 8 (code * 16 + 4), if code = 7 ∨ code = 8 then 0x01 else 0x7F⟩

/-- Codes of a bit stream of elements (R36). -/
def unpackCodes (width n : Nat) (bs : List Byte) : List Nat :=
  let v := leNat bs
  (List.range n).map (fun i => (v >>> (width * i)) % 2 ^ width)
def packCodes (width nbytes : Nat) (cs : List Nat) : List Byte := leBytes nbytes (packElems width cs)

/-- A block as a pass reads it: its tag and its 1,024 element codes (R66, R678). -/
def readBlock (p : Pad) (pad unit code : Nat) : BlockTag × List Nat :=
  match Table.find? p.blocks (tagKey pad unit) with
  | none => (unwrittenTag code, List.replicate 1024 0)
  | some t =>
    match fmtOfCode code with
    | some f => (t, unpackCodes f.width 1024 (p.read (unitAddr pad unit) (blockBytes code)))
    | none => (t, [])

/-- A block written to W-pad or A-pad: element bytes to its units, scales, flags and summary to the tag store (R68). -/
def writeBlock (p : Pad) (pad unit code : Nat) (flags : Byte) (scales elems : List Byte) : Pad :=
  let p := p.write (unitAddr pad unit) elems
  let codes := match fmtOfCode code with | some f => unpackCodes f.width 1024 elems | none => []
  let sc := if isScaledCode code then scales else List.replicate 32 0x7F
  let cleared := (rangeFrom (tagKey pad unit) (footprint code)).foldl (fun t k => Table.del t k) p.blocks
  { p with blocks := Table.put cleared (tagKey pad unit) ⟨sc, flags, BitVec.ofNat 8 (summaryOf code sc codes)⟩ }

/-- Value of element (r, c) of a block under its scale axis (R35, R68). -/
def blockElem (code : Nat) (b : BlockTag × List Nat) (r c : Nat) : Num :=
  match fmtOfCode code with
  | none => .nan
  | some f =>
    let x := b.2.getD (32 * r + c) 0
    if isScaledCode code then decodeScaled f (b.1.scales.getD (if bit b.1.flags 3 then c else r) 0x7F).toNat x else decodeNum f x

/-- Blocks of one operand of a pass: (unit, whether it lies in the pad), row by row (R75). -/
def operandUnits (base : Int) (pitch fp rows cols : Nat) : List Int :=
  let pitch := if pitch = 0 then cols else pitch
  (List.range rows).flatMap (fun r => (List.range cols).map (fun c => base + ((r * pitch + c) * fp : Nat)))

/-- Stored shape, in blocks, of the stationary operand: K × N, or N × K for a bias read (R75). -/
def statShape (g : Group) (o : PassOp) : Nat × Nat := if o.wt then (g.ncols + 1, o.kblk + 1) else (o.kblk + 1, g.ncols + 1)
/-- Stored shape of the streamed operand: Mt × K, or K × Mt for a bias read. -/
def strShape (g : Group) (o : PassOp) : Nat × Nat := if o.at' then (o.kblk + 1, g.mrows + 1) else (g.mrows + 1, o.kblk + 1)
def statUnits (g : Group) (o : PassOp) : List Int := operandUnits o.waddr o.wpitch (footprint g.fmtB) (statShape g o).1 (statShape g o).2
def strUnits (g : Group) (o : PassOp) : List Int := operandUnits o.aaddr o.apitch (footprint g.fmtA) (strShape g o).1 (strShape g o).2
/-- Pad of each operand: WSRC 0 W-pad, 1 A-pad; ASRC 0 A-pad, 1 W-pad (R75). -/
def statPad (o : PassOp) : Nat := o.wsrc
def strPad (o : PassOp) : Nat := 1 - o.asrc

/-- Every block lies within its pad (R81). -/
def unitsInPad (pad fp : Nat) (us : List Int) : Bool :=
  us.all (fun u => decide (0 ≤ u) && decide (u + fp ≤ (mPadBytes pad / 512 : Nat)))
/-- The 4 KiB slots a block touches. -/
def blockSlots (pad fp unit : Nat) : List Nat := slotsOf (unitAddr pad unit) (512 * fp)
/-- Every slot of every block is FILLED (R82, R88). -/
def blocksFilled (p : Pad) (pad fp : Nat) (us : List Int) : Bool :=
  us.all (fun u => (blockSlots pad fp u.toNat).all (fun k => p.filled.getLsbD k))
def passFilled (p : Pad) (g : Group) (o : PassOp) : Bool :=
  blocksFilled p (statPad o) (footprint g.fmtB) (statUnits g o) && blocksFilled p (strPad o) (footprint g.fmtA) (strUnits g o)
/-- Slots a pass reads (R86). -/
def passSlots (g : Group) (o : PassOp) : List Nat :=
  (statUnits g o).flatMap (fun u => blockSlots (statPad o) (footprint g.fmtB) u.toNat) ++
  (strUnits g o).flatMap (fun u => blockSlots (strPad o) (footprint g.fmtA) u.toNat)

/-- The scale axis of every block fits the read's contraction axis, or the block is square (R69). -/
def axisOk (p : Pad) (pad code : Nat) (axis : Bool) (us : List Int) : Bool :=
  us.all (fun u => let t := (readBlock p pad u.toNat code).1; bit t.flags 2 || bit t.flags 3 == axis)

/-- Bound c of R39 for MX and MXINT8 codes. -/
def boundC (code : Nat) : Int :=
  match fmtOfCode code with
  | some .e2m1 | some .e2m3 => 3
  | some .e3m2 => 5
  | some .e4m3 => 9
  | some .e5m2 => 16
  | some .mxint8 => 2
  | _ => 0

/-- The automatic anchor of the largest summaries SA and SB (R42). -/
def autoAnchor (fa fb sa sb : Nat) : Int :=
  if fa = 5 then 16
  else if fa = 7 ∨ fa = 8 then
    ((sa : Int) - (if fa = 7 then 14 else 126)) + ((sb : Int) - (if fb = 7 then 14 else 126))
  else (sa : Int) + sb - 254 + boundC fa + boundC fb

/-- Largest summary over the blocks of a group's passes on one side (R41). -/
def maxSummary (p : Pad) (pads : List (Nat × Nat × List Int)) : Nat :=
  pads.foldl (fun a x => x.2.2.foldl (fun a u => max a (readBlock p x.1 u.toNat x.2.1).1.summary.toNat) a) 0
def groupAnchor (p : Pad) (g : Group) (ops : List PassOp) : Int :=
  autoAnchor g.fmtA g.fmtB (maxSummary p (ops.map (fun o => (strPad o, g.fmtA, strUnits g o))))
    (maxSummary p (ops.map (fun o => (statPad o, g.fmtB, statUnits g o))))

/-- Combination of special states: NaN absorbs, opposite infinities give NaN (R49). -/
def spJoin (a b : Nat) : Nat := if a = 0 then b else if b = 0 then a else if a = b then a else 3

/-- One product's contribution (R43, R45, R49): term, special state, truncated, clamped, and what truncation dropped in units of 2^(a−85−1024). -/
structure Term where
  t : Int
  sp : Nat
  trunc : Bool
  clamp : Bool
  rest : Nat

def productTerm (explicit : Bool) (a : Int) (x y : Num) : Term :=
  match x.mul y with
  | .nan => ⟨0, 3, false, false, 0⟩
  | .inf neg => ⟨0, if neg then 2 else 1, false, false, 0⟩
  | .fin neg m e =>
    let q := a - 85
    if explicit && m != 0 && decide (a ≤ (m.log2 : Int) + e) then ⟨if neg then -(2 ^ 85 - 1) else 2 ^ 85 - 1, 0, false, true, 0⟩
    else
      let v : Int := if neg then -(m : Int) else m
      if q ≤ e then ⟨v * 2 ^ (e - q).toNat, 0, false, false, 0⟩
      else
        let k := (q - e).toNat
        let r := (v % 2 ^ k).toNat
        ⟨v / 2 ^ k, 0, r != 0, false, if k ≤ 1024 then r * 2 ^ (1024 - k) else r / 2 ^ (k - 1024)⟩

/-- Running sums of one output element over K. -/
structure ElemSum where
  t : Int := 0
  sp : Nat := 0
  trunc : Nat := 0
  clamp : Nat := 0
  rest : Nat := 0
def ElemSum.add (s : ElemSum) (x : Term) : ElemSum :=
  ⟨s.t + x.t, spJoin s.sp x.sp, s.trunc + b2n x.trunc, s.clamp + b2n x.clamp, s.rest + x.rest⟩

/-- Blocks of an operand in row-major order, read once. -/
def loadBlocks (p : Pad) (pad code : Nat) (us : List Int) : List (BlockTag × List Nat) := us.map (fun u => readBlock p pad u.toNat code)

/-- B[k][n] of the stationary tile (R61). -/
def statElem (g : Group) (o : PassOp) (bl : List (BlockTag × List Nat)) (k n : Nat) : Num :=
  let w := (statShape g o).2
  let d : BlockTag × List Nat := (unwrittenTag g.fmtB, [])
  if o.wt then blockElem g.fmtB (bl.getD ((n / 32) * w + k / 32) d) (n % 32) (k % 32)
  else blockElem g.fmtB (bl.getD ((k / 32) * w + n / 32) d) (k % 32) (n % 32)
/-- A[i][k] of the streamed tile. -/
def strElem (g : Group) (o : PassOp) (bl : List (BlockTag × List Nat)) (i k : Nat) : Num :=
  let w := (strShape g o).2
  let d : BlockTag × List Nat := (unwrittenTag g.fmtA, [])
  if o.at' then blockElem g.fmtA (bl.getD ((k / 32) * w + i / 32) d) (k % 32) (i % 32)
  else blockElem g.fmtA (bl.getD ((i / 32) * w + k / 32) d) (i % 32) (k % 32)

/-- The sums of one pass for every output element, row-major (R61, R78). -/
def passSums (p : Pad) (g : Group) (a : Int) (o : PassOp) : List ElemSum :=
  let bs := loadBlocks p (statPad o) g.fmtB (statUnits g o)
  let as' := loadBlocks p (strPad o) g.fmtA (strUnits g o)
  let K := 32 * (o.kblk + 1)
  let N := 32 * (g.ncols + 1)
  let cols := (List.range N).map (fun n => (List.range K).map (fun k => statElem g o bs k n))
  (List.range (32 * (g.mrows + 1))).flatMap (fun i =>
    let row := (List.range K).map (fun k => strElem g o as' i k)
    cols.map (fun col => (List.zip row col).foldl (fun s x => s.add (productTerm g.amode a x.1 x.2)) {}))

/-- Totals of a row-major grid by row and by column. -/
def rowTotals (cols : Nat) (rows : Nat) (l : List Nat) : List Nat := (chunks cols rows l).map (fun r => r.foldl (· + ·) 0)
def colTotals (cols : Nat) (rows : Nat) (l : List Nat) : List Nat :=
  (chunks cols rows l).foldl (fun a r => List.zipWith (· + ·) a r) (List.replicate cols 0)

/-- The flight record of a pass at its issue. -/
def flightOf (p : Pad) (g : Group) (a : Int) (o : PassOp) (idx ord : Nat) : Flight :=
  let s := passSums p g a o
  let R := 32 * (g.mrows + 1)
  let C := 32 * (g.ncols + 1)
  let tr := s.map (·.trunc)
  let cl := s.map (·.clamp)
  let rs := s.map (·.rest)
  { idx := idx, seq := o.seq, kblk := o.kblk, g := o.g, ord := ord, sums := s.map (fun x => ⟨x.t, x.sp⟩)
    truncRow := rowTotals C R tr, truncCol := colTotals C R tr
    clampRow := rowTotals C R cl, clampCol := colTotals C R cl
    truncs := tr.foldl (· + ·) 0, clamps := cl.foldl (· + ·) 0
    lrow := rowTotals C R rs, lcol := colTotals C R rs
    rows := R, interval := max (rowInterval g.fmtA) (rowInterval g.fmtB) }

/-- R100 for one row or column: T truncated products, the dropped parts' sum and the physical error d in its terms. -/
def checkPasses (T rest : Nat) (d : Int) : Bool :=
  if T = 0 then decide (d = 0)
  else
    let x : Int := (rest : Int) - d * 2 ^ 1024
    decide (0 ≤ x) && decide (x < (T : Int) * 2 ^ 1024)

/-- The cuff program's operations up to END (R92): op code and the 64-bit word. -/
def cuffOps (prog : List Byte) : List (Nat × U64) :=
  let ws := (chunks 8 8 prog).map (fun b => BitVec.ofNat 64 (leNat b))
  ((ws.map (fun w => (fld w 63 60, w))).takeWhile (fun x => x.1 != 0))

/-- One cuff operation on x at column n (R92); KEEP leaves x. -/
def cuffStep (vec : Nat → Nat → Num) (n : Nat) (x : Num) (op : Nat × U64) : Num :=
  let imm := f32 (fld op.2 31 0)
  let pos := (Num.fin false 0 0).lt x
  match op.1 with
  | 1 => r32' (x.add (vec (fld op.2 59 44) n))
  | 2 => r32' (x.mul (vec (fld op.2 59 44) n))
  | 3 => r32' (x.add imm)
  | 4 => r32' (x.mul imm)
  | 5 => if pos then x else if x.isNan then .nan else .fin false 0 0
  | 6 => if pos || x.isNan then x else r32' (x.mul imm)
  | 7 => numMin (numMax x imm.neg) imm
  | _ => x
where r32' (v : Num) : Num := f32 (toF32 v)

/-- The exact drained value of an accumulator (R50, R51). -/
def accNum (a : Int) (x : Acc) : Num :=
  match x.sp with
  | 1 => .inf false
  | 2 => .inf true
  | 3 => .nan
  | _ => Num.ofInt x.v (a - 85)

/-- A drained tile: rows of final values, with the counts of R53, and the KEEP masks taken on the way. -/
structure DrainOut where
  vals : List Num
  ovf : Nat
  keep : List (Nat × List Bool)

/-- The elements of a tile through FP32 rounding and the cuff program (R91, R92). Each KEEP gives its operand and a bit per element. -/
def cuffRun (a : Int) (N : Nat) (vec : Nat → Nat → Num) (ops : List (Nat × U64)) (acc : List Acc) : DrainOut :=
  let first := acc.map (fun x => let r := encodeNum .fp32 false .rne (accNum a x); (f32 r.code, r.ovf))
  let step (st : List Num × List (Nat × List Bool)) (op : Nat × U64) :=
    let keeps := if op.1 = 8 then st.2 ++ [(fld op.2 59 44, st.1.map (fun x => (Num.fin false 0 0).lt x))] else st.2
    (st.1.zipIdx.map (fun x => cuffStep vec (x.2 % N) x.1 op), keeps)
  let r := ops.foldl step (first.map (·.1), [])
  ⟨r.1, first.countP (·.2), r.2⟩

/-- Element (i, c) order of block (br, bc) of a row-major Mt × N list. -/
def blockOf {α : Type} (N br bc : Nat) (d : α) (l : Array α) : List α :=
  (List.range 32).flatMap (fun r => (List.range 32).map (fun c => l.getD ((32 * br + r) * N + 32 * bc + c) d))

/-- An output block: element bytes, 32 scale bytes, how many elements overflowed and how many NaN events it counts (R53, R54, R93). -/
structure OutBlock where
  bytes : List Byte
  scales : List Byte
  ovf : Nat
  nan : Nat

/-- A block converted to an output format: direct, or with block scales, square or per row (R53, R54, R91, R93). -/
def convertBlock (code : Nat) (sat square : Bool) (vs : List Num) : OutBlock :=
  match fmtOfCode code with
  | none => ⟨[], [], 0, 0⟩
  | some f =>
    if isScaledCode code then
      if square then
        let b := mxBlock f (fun _ => .rne) vs
        ⟨packCodes f.width (blockBytes code) b.2, List.replicate 32 (BitVec.ofNat 8 b.1), 0, if b.1 = 0xFF then 1 else 0⟩
      else
        let bs := (chunks 32 32 vs).map (mxBlock f (fun _ => .rne))
        ⟨packCodes f.width (blockBytes code) (bs.flatMap (·.2)), bs.map (fun b => BitVec.ofNat 8 b.1), 0, bs.countP (fun b => b.1 == 0xFF)⟩
    else
      let rs := vs.map (fun v => encodeNum f sat .rne v)
      ⟨packCodes f.width (blockBytes code) (rs.map (·.code)), List.replicate 32 0x7F, rs.countP (·.ovf),
        if f.isInt then 0 else vs.countP Num.isNan⟩

end Sys2Proof.Machine
end

