-- ==== Sys2Proof/Machine/MSeq.lean ====
section
/-! DEFINITION. The M core's tile-command sequencer: the window, loop table, groups, pass scanner, pass issue and completion
(R71 to R89, R99 to R104, R221, R226, R227, R676). -/

namespace Sys2Proof.Machine
open Sys2Proof

/-- A loop table entry (R226). -/
structure LoopEntry where
  first : Nat
  last : Nat
  count : Nat
  src : Bool
  ep : Nat
  rate : Nat
  wstep : Int
  astep : Int
  dstep : Int

/-- The loop table of a slot (R213, R226). -/
def loopTable (p : Pat) (slot : Nat) : List LoopEntry :=
  (List.range (p.hdr slot 24 1)).map (fun i =>
    let w : U128 := BitVec.ofNat 128 ((p.image slot).num (p.hdr slot 22 2 + 16 * i) 16)
    { first := fld w 127 112, last := fld w 111 96, count := fld w 95 80, src := bit w 79, ep := fld w 78 73, rate := fld w 72 69,
      wstep := sgn 16 (fld w 68 53), astep := sgn 16 (fld w 52 37), dstep := sgn 16 (fld w 36 21) })

/-- Where a fetch stands: slot, next command index, loop states, and a loop waiting for its token. -/
structure FetchPos where
  slot : Nat
  idx : Nat
  loops : Table LoopSt
  wait : Option Nat

def loopSt (t : Table LoopSt) (i : Nat) : LoopSt := Table.get {} t i

/-- Loops entered at the fetch position, outer first; one whose count comes from a token waits for it (R227). -/
def settle (lt : List LoopEntry) : Nat → FetchPos → FetchPos
  | 0, f => f
  | fuel + 1, f =>
    let here := lt.zipIdx.filter (fun x => x.1.first == f.idx && !(loopSt f.loops x.2).active)
    match here.foldl (fun (b : Option (LoopEntry × Nat)) x => match b with | none => some x | some y => if y.1.last < x.1.last then some x else some y) none with
    | none => f
    | some (e, i) =>
      if e.src then { f with wait := some i }
      else settle lt fuel { f with loops := Table.put f.loops i ⟨true, 0, e.count⟩ }

/-- The position after the command at the present index: back to FIRST of the innermost loop that ends there with iterations left,
else on, leaving the loops that end there (R227). -/
def advanceGo (lt : List LoopEntry) : Nat → FetchPos → FetchPos
  | 0, f => { f with idx := f.idx + 1 }
  | fuel + 1, f =>
    let ending := lt.zipIdx.filter (fun x => x.1.last == f.idx && (loopSt f.loops x.2).active)
    match ending.foldl (fun (b : Option (LoopEntry × Nat)) x => match b with | none => some x | some y => if y.1.first < x.1.first then some x else some y) none with
    | none => { f with idx := f.idx + 1 }
    | some (e, i) =>
      let st := loopSt f.loops i
      if st.iter + 1 < st.count then { f with idx := e.first, loops := Table.put f.loops i { st with iter := st.iter + 1 } }
      else advanceGo lt fuel { f with loops := Table.put f.loops i {} }

def advance (p : Pat) (f : FetchPos) : FetchPos :=
  let lt := loopTable p f.slot
  settle lt 16 (advanceGo lt 16 f)

/-- A token gives a waiting loop its count; 0 skips to LAST + 1 (R227). -/
def giveCount (p : Pat) (f : FetchPos) (i v : Nat) : FetchPos :=
  let lt := loopTable p f.slot
  match lt[i]? with
  | none => { f with wait := none }
  | some e =>
    settle lt 16 (
      if v = 0 then { f with wait := none, idx := e.last + 1 }
      else { f with wait := none, loops := Table.put f.loops i ⟨true, 0, v⟩ })

/-- Beyond the program's last command the fetch goes on at the ENTRY of slot NEXT, keeping loop state (R221). None: NEXT is not usable (R257). -/
def wrapFetch (p : Pat) (f : FetchPos) : Option FetchPos :=
  if f.idx < p.progLen f.slot then some f
  else
    let k := p.hdr f.slot 25 1 % 4
    if p.loaded.contains k && p.slotCtag k == p.ctag then some (settle (loopTable p k) 16 { f with slot := k, idx := p.entry k })
    else none

/-- Sum of increments for a command index: each loop's iteration index times its step (R227). -/
def increment (p : Pat) (f : FetchPos) (step : LoopEntry → Int) : Int :=
  (loopTable p f.slot).zipIdx.foldl (fun a x =>
    if decide (x.1.first ≤ f.idx) && decide (f.idx ≤ x.1.last) then a + ((loopSt f.loops x.2).iter : Int) * step x.1 else a) 0

def MCore.pos (m : MCore) (slot : Nat) : FetchPos := ⟨slot, m.fetch, m.loops, m.loopWait⟩
def MCore.setPos (m : MCore) (f : FetchPos) : MCore := { m with fetch := f.idx, loops := f.loops, loopWait := f.wait }

def MCore.group (m : MCore) (g : Nat) : Group := Table.get {} m.groups g
def MCore.setGroup (m : MCore) (g : Nat) (x : Group) : MCore := { m with groups := Table.put m.groups g x }

/-- Finished commands leave the window from its oldest end. -/
def MCore.prune (m : MCore) : MCore := { m with window := m.window.dropWhile (·.done) }

/-- PASS operands of a word at a fetch position (R75, R227), and R84's substitution. -/
def passOpOf (p : Pat) (f : FetchPos) (w : U128) (seq : Nat) (last : Option PassOp) : PassOp :=
  let reuse := bit w 65
  let own : PassOp :=
    { g := fld w 123 122, kblk := fld w 121 118, wsrc := fld w 117 117, wt := bit w 116, asrc := fld w 115 115, at' := bit w 114,
      waddr := (fld w 113 98 : Nat) + increment p f (·.wstep), aaddr := (fld w 97 82 : Nat) + increment p f (·.astep),
      wpitch := fld w 81 74, apitch := fld w 73 66, reuse := reuse, seq := seq }
  match reuse, last with
  | true, some l => { own with wsrc := l.wsrc, wt := l.wt, waddr := l.waddr, wpitch := l.wpitch }
  | _, _ => own

/-- What a command does as it enters the window. -/
inductive MEntry where
  /-- It enters: the core after it, and the window entry. -/
  | enter (m : MCore) (c : WinCmd)
  | fault (code g : Nat)
  /-- The sequencer cannot take it yet. -/
  | wait

/-- A program fault of the sequencer at a command (R108). -/
def mFault (nd : Node) (code idx g : Nat) (loc : U64) (tag : Nat) : Node := nd.raiseM code idx g loc tag

/-- The frame of every tile command: the window has room, no loop waits for a token, no MARK of the step is in the window (log 44), beyond the
program the fetch continues at NEXT, where a loop that takes its count from a token waits for it first (R221, R227), a nonzero reserved field is BAD_OPCODE (R71), then the command's own entry, and the fetch moves on (R227). -/
def mEnter (n : NodeId) (w : MWord) (s : State) (op : Nat) (reserved : MWord → Bool) (f : Node → FetchPos → WinCmd → MEntry) : Res :=
  nodeOnly [.m] n s (fun nd =>
    if nd.live && nd.mc.run && nd.pat.phase == .inStep && decide (nd.mc.window.length < 16) && nd.mc.loopWait.isNone &&
        !nd.mc.window.any (fun c => fld c.word 127 124 == 5) then
      match wrapFetch nd.pat (nd.mc.pos nd.pat.active) with
      | none => mFault nd 0x19 nd.mc.fetch 0 0 0
      | some pos =>
        let nd := { nd with pat := { nd.pat with active := pos.slot } }
        let word : U128 := BitVec.ofNat 128 (op * 2 ^ 124 + w.toNat)
        let cmd : WinCmd := ⟨pos.idx, word, none, 0, none, false, false⟩
        if pos.wait.isSome then { nd with mc := nd.mc.setPos pos }
        else if reserved w then mFault { nd with mc := nd.mc.setPos pos } 0x04 pos.idx 0 0 0
        else
          match f { nd with mc := nd.mc.setPos pos } pos cmd with
          | .wait => nd
          | .fault code g => mFault { nd with mc := nd.mc.setPos pos } code pos.idx g 0 0
          | .enter m c =>
            { nd with
              mc := (({ m with window := m.window ++ [c] } : MCore).setPos (advance nd.pat pos)).prune
              pat := { nd.pat with runInstr := satAdd nd.pat.runInstr 1 } }
    else nd)

/-- NOP: its fields are all reserved and must be zero (R71, R73, log 14). -/
def execMNop (n : NodeId) (w : MWord) (s : State) : Res :=
  mEnter n w s 0x0 (fun w => w != 0) (fun nd _ c => .enter nd.mc { c with done := true })

/-- GROUP opens accumulate group G (R74, R80). -/
def execGroup (n : NodeId) (w : MWord) (s : State) : Res :=
  mEnter n w s 0x1 (fun w => fld w 73 0 != 0 || (!bit w 115 && fld w 114 105 != 0)) (fun nd pos c =>
    let g := fld w 123 122
    let old := nd.mc.group g
    let passes := fld w 121 116
    let fa := fld w 104 101
    let fb := fld w 100 97
    let pbase := fld w 87 74
    let rows := 32 * (fld w 95 92 + 1)
    let cols := 32 * (fld w 91 88 + 1)
    if old.isOpen then .fault 0x06 g
    else if old.draining then .wait
    else if passes = 0 ∨ 32 < passes then .fault 0x02 g
    else if !fmtCodeOk fa || !fmtCodeOk fb then .fault 0x01 g
    else if 1 < passes ∧ 8 * 1024 * 1024 < 512 * pbase + rows * cols * 8 then .fault 0x05 g
    else
      let after := advance nd.pat pos
      let x : Group :=
        { isOpen := true, passes := passes, amode := bit w 115, anchor := if bit w 115 then some (sgn 10 (fld w 114 105)) else none
          fmtA := fa, fmtB := fb, backward := bit w 96, mrows := fld w 95 92, ncols := fld w 91 88, pbase := pbase
          scanSlot := after.slot, scanAt := after.idx, scanLoops := after.loops, scanSeq := nd.mc.passSeq, scanLast := nd.mc.lastPass }
      .enter (nd.mc.setGroup g x) { c with done := true })

/-- PASS enters as one K pass of its group (R75, R80, R81, R84). -/
def execPass (n : NodeId) (w : MWord) (s : State) : Res :=
  mEnter n w s 0x2 (fun w => fld w 64 0 != 0) (fun nd pos c =>
    let m := nd.mc
    let o := passOpOf nd.pat pos c.word m.passSeq m.lastPass
    let g := m.group o.g
    if !g.isOpen then .fault 0x06 o.g
    else if g.passes ≤ g.received then .fault 0x06 o.g
    else if !pairOk g.fmtA g.fmtB then .fault 0x01 o.g
    else if o.reuse && (match m.lastPass with | none => true | some l => l.kblk != o.kblk) then .fault 0x05 o.g
    else if !unitsInPad (statPad o) (footprint g.fmtB) (statUnits g o) || !unitsInPad (strPad o) (footprint g.fmtA) (strUnits g o) then .fault 0x05 o.g
    else .enter { m.setGroup o.g { g with received := g.received + 1 } with lastPass := some o, passSeq := m.passSeq + 1 } { c with pass := some o })

/-- DRAIN enters to drain and close its group; its cuff program is the one its slot holds now (R76, R80, R92). -/
def execMDrain (n : NodeId) (w : MWord) (s : State) : Res :=
  mEnter n w s 0x3 (fun w => fld w 78 0 != 0) (fun nd pos c =>
    let gi := fld w 123 122
    let g := nd.mc.group gi
    if !g.isOpen then .fault 0x06 gi
    else if g.received < g.passes then .fault 0x06 gi
    else if !fmtCodeOk (fld w 121 118) then .fault 0x01 gi
    else if 4 ≤ fld w 115 113 then .fault 0x05 gi
    else
      let slot := fld w 90 87
      .enter (nd.mc.setGroup gi { g with isOpen := false, draining := true })
        { c with daddr := (fld w 106 91 : Nat) + increment nd.pat pos (·.dstep),
                 cuff := if slot = 0 then some [] else Table.find? nd.mc.cuffs slot })

/-- 4 KiB slots of an M pad: first slot in FILL_TAGS numbering and count (R77, R208). -/
def mPadSlots (pad : Nat) : Nat × Nat := (mPadBase pad / 4096, mPadBytes pad / 4096)
/-- The FILL_TAGS slots a RELEASE names. -/
def releaseSlots (w : U128) : List Nat :=
  rangeFrom ((mPadSlots (fld w 123 122)).1 + fld w 121 109) (fld w 108 96)

/-- RELEASE names slots of a pad (R77). -/
def execMRelease (n : NodeId) (w : MWord) (s : State) : Res :=
  mEnter n w s 0x4 (fun w => fld w 95 0 != 0) (fun nd _ c =>
    let pad := fld w 123 122
    if pad = 3 ∨ fld w 108 96 = 0 ∨ (mPadSlots pad).2 < fld w 121 109 + fld w 108 96 then .fault 0x05 0
    else .enter nd.mc c)

/-- MARK marks the step boundary (R73, R77). -/
def execMMark (n : NodeId) (w : MWord) (s : State) : Res :=
  mEnter n w s 0x5 (fun w => w != 0) (fun nd _ c => .enter nd.mc c)

/-- CUFFLD loads a cuff program slot for the rest of the step (R77, R92). -/
def execCuffld (n : NodeId) (w : MWord) (s : State) : Res :=
  mEnter n w s 0x6 (fun w => fld w 103 0 != 0) (fun nd _ c =>
    let slot := fld w 123 120
    let unit := fld w 119 104
    if slot = 0 ∨ 32768 ≤ unit then .fault 0x05 0
    else .enter { nd.mc with cuffs := Table.put nd.mc.cuffs slot (nd.pad.read (unitAddr 1 unit) 64) } { c with done := true })

/-- The oldest token waiting in an input endpoint's notification queue: TOKVAL (R225). -/
def tokenAt (nd : Node) (ep k : Nat) : Option Nat := ((nd.inEp ep).recs[k]?).map (fun r => fld r.hdr 87 72)

/-- What the pass scanner found. -/
inductive Scan where
  | found (ops : List PassOp)
  | blockedOnToken
  | hitMark
  | badNext

/-- Read ahead from a GROUP until its passes are found (R676). `seen` are tokens the sequencer has taken since; `used` counts tokens read
ahead per endpoint. -/
def scanGo (nd : Node) (g want : Nat) : Nat → FetchPos → List (Nat × Nat) → Table Nat → Nat → Option PassOp → List PassOp → Scan
  | 0, _, _, _, _, _, _ => .blockedOnToken
  | fuel + 1, f, seen, used, seq, last, acc =>
    match f.wait with
    | some i =>
      match (loopTable nd.pat f.slot)[i]? with
      | none => .blockedOnToken
      | some e =>
        match takeFirst (fun x : Nat × Nat => x.1 == e.ep) seen with
        | some (x, seen) => scanGo nd g want fuel (giveCount nd.pat f i x.2) seen used seq last acc
        | none =>
          let k := Table.get 0 used e.ep
          match tokenAt nd e.ep k with
          | some v => scanGo nd g want fuel (giveCount nd.pat f i v) seen (Table.put used e.ep (k + 1)) seq last acc
          | none => .blockedOnToken
    | none =>
      match wrapFetch nd.pat f with
      | none => .badNext
      | some f =>
        if f.wait.isSome then scanGo nd g want fuel f seen used seq last acc
        else
          let w : U128 := BitVec.ofNat 128 ((nd.pat.image f.slot).num (nd.pat.hdr f.slot 12 2 + 16 * f.idx) 16)
          match fld w 127 124 with
          | 2 =>
            let o := passOpOf nd.pat f w seq last
            let acc := if o.g = g then acc ++ [o] else acc
            if acc.length = want then .found acc
            else scanGo nd g want fuel (advance nd.pat f) seen used (seq + 1) (some o) acc
          | 5 => .hitMark
          | _ => scanGo nd g want fuel (advance nd.pat f) seen used seq last acc

/-- The pass scanner of a group with an automatic anchor (R676). -/
def execPassScan (n : NodeId) (g : Nat) (s : State) : Res :=
  if 3 < g then .fault .noSuchUnit
  else nodeOnly [.m] n s (fun nd =>
    let x := nd.mc.group g
    if nd.live && nd.mc.run && (x.isOpen || x.draining) && !x.amode && x.scanned.isNone then
      match scanGo nd g x.passes 4194304 (settle (loopTable nd.pat x.scanSlot) 16 ⟨x.scanSlot, x.scanAt, x.scanLoops, none⟩) x.tokSeen [] x.scanSeq x.scanLast [] with
      | .found ops => { nd with mc := nd.mc.setGroup g { x with scanned := some ops } }
      | .blockedOnToken => nd
      | .hitMark => mFault nd 0x06 x.scanAt g 0 0
      | .badNext => mFault nd 0x19 x.scanAt g 0 0
    else nd)

/-- A pass's group has its anchor fixed: explicit, or automatic with every scanned block filled (R41, R82, R676). -/
def anchorReady (nd : Node) (g : Group) : Bool :=
  g.anchor.isSome || (match g.scanned with | some ops => ops.all (passFilled nd.pad g) | none => false)

/-- A plane that a waiting multi-pass group can give up by a spill (R82). -/
def spillable (nd : Node) (plane : Nat) : Bool :=
  match Table.find? nd.mc.planes plane with
  | none => false
  | some gi =>
    let g := nd.mc.group gi
    decide (2 ≤ g.passes) && (g.isOpen || g.draining) && !(nd.mc.flights.any (fun f => f.g == gi)) && decide (g.completed < g.passes) &&
    !(nd.mc.window.any (fun c => match c.pass with | some o => o.g == gi && !c.issued && passFilled nd.pad g o | none => false))

/-- The plane a pass of a group would use: its own, a free one, or one whose group is spilled (R82). -/
def planeFor (nd : Node) (g : Group) : Option (Nat × Bool) :=
  match g.plane with
  | some p => some (p, false)
  | none =>
    match [0, 1].find? (fun p => !Table.has nd.mc.planes p) with
    | some p => some (p, false)
    | none => ([0, 1].find? (spillable nd)).map (fun p => (p, true))

/-- A window entry's pass is eligible (R82, R84). -/
def eligible (nd : Node) (c : WinCmd) : Bool :=
  match c.pass with
  | none => false
  | some o =>
    let g := nd.mc.group o.g
    let lastSeq := (nd.mc.flights.map (·.idx)).length
    let pendingBefore := nd.mc.window.any (fun d => match d.pass with | some q => !d.issued && q.seq + 1 == o.seq | none => false)
    let reuseNext := nd.mc.window.any (fun d => match d.pass with
      | some q => !d.issued && q.reuse && q.seq != o.seq &&
        nd.mc.window.any (fun e => match e.pass with | some r => e.issued && r.seq + 1 == q.seq | none => false)
      | none => false)
    !c.issued && anchorReady nd g && passFilled nd.pad g o && decide (lastSeq < 2) && (planeFor nd g).isSome &&
      !(o.reuse && pendingBefore) && !reuseNext

/-- The pass issued next: by the CLASS preference of PRIO, then the oldest (R83). -/
def pickPass (nd : Node) : Option WinCmd :=
  let es := nd.mc.window.filter (eligible nd)
  let cls (b : Bool) := es.find? (fun c => match c.pass with | some o => (nd.mc.group o.g).backward == b | none => false)
  match nd.mc.prio with
  | 1 => (cls true).or (cls false)
  | 2 => (cls false).or (cls true)
  | _ => es.head?

/-- Bytes of partials as they lie at a P-pad home (R79): the low 64 bits of each folded accumulator's P. -/
def partialBytes (acc : List Acc) : List Byte := acc.flatMap (fun x => leBytes 8 (intCode 64 (x.v / 2 ^ 36)))

/-- A group's accumulators written to its P-pad home (R79). -/
def spillGroup (nd : Node) (gi : Nat) : Node :=
  let g := nd.mc.group gi
  match g.plane with
  | none => nd
  | some p =>
    { nd with
      pad := nd.pad.write (unitAddr 2 g.pbase) (partialBytes g.acc)
      mc := { (nd.mc.setGroup gi { g with plane := none, spilled := true, pspecial := g.acc.map (·.sp), acc := [] }) with
        planes := Table.del nd.mc.planes p
        pspill := satAdd nd.mc.pspill (128 * (g.mrows + 1)) } }

/-- The accumulators a spilled group's home holds (R46, R79). -/
def homeAccs (p : Pad) (g : Group) : List Acc :=
  let n := 1024 * (g.mrows + 1) * (g.ncols + 1)
  ((chunks 8 n (p.read (unitAddr 2 g.pbase) (8 * n))).zip g.pspecial).map (fun x => ⟨sgn 64 (leNat x.1) * 2 ^ 36, x.2⟩)

/-- A group given a plane: fresh accumulators, or its home restored (R79). -/
def takePlane (nd : Node) (gi plane : Nat) : Node :=
  let g := nd.mc.group gi
  if g.plane.isSome then nd
  else
    let n := 1024 * (g.mrows + 1) * (g.ncols + 1)
    let acc := if g.spilled then homeAccs nd.pad g else List.replicate n ⟨0, 0⟩
    { nd with mc := { (nd.mc.setGroup gi { g with plane := some plane, spilled := false, pspecial := [], acc := acc }) with
        planes := Table.put nd.mc.planes plane gi
        pspill := if g.spilled then satAdd nd.mc.pspill (128 * (g.mrows + 1)) else nd.mc.pspill } }

/-- Window entries changed where p holds. -/
def MCore.mapWin (m : MCore) (p : WinCmd → Bool) (f : WinCmd → WinCmd) : MCore :=
  { m with window := m.window.map (fun c => if p c then f c else c) }

/-- Work added to the running step (R253). -/
def Pat.addWork (p : Pat) (k : Nat) : Pat := { p with runWork := satAdd p.runWork k }

/-- The scheduler issues an eligible pass (R69, R82 to R84, R88, R159): spill or restore as needed, the preload, and the stream's terms.
`struck` is a word whose stored bits a physical cause upset. -/
def execPassIssue (n : NodeId) (struck : Option Nat) (s : State) : Res :=
  nodeOnly [.m] n s (fun nd =>
    let nd := match struck with
      | some w => if nd.pad.valid.contains (w / 16) then { nd with pad := { nd.pad with bad := setIns nd.pad.bad w } } else nd
      | none => nd
    if !(nd.live && nd.mc.run) then nd
    else
    match pickPass nd with
    | none => nd
    | some c =>
      match c.pass with
      | none => nd
      | some o =>
        let g := nd.mc.group o.g
        if !axisOk nd.pad (statPad o) g.fmtB (!o.wt) (statUnits g o) || !axisOk nd.pad (strPad o) g.fmtA o.at' (strUnits g o) then
          mFault nd 0x03 c.idx o.g (BitVec.ofNat 64 g.issued) 0
        else
          let bad := (statUnits g o).findSome? (fun u => nd.pad.badWord (unitAddr (statPad o) u.toNat) (blockBytes g.fmtB))
          let bad := bad.or ((strUnits g o).findSome? (fun u => nd.pad.badWord (unitAddr (strPad o) u.toNat) (blockBytes g.fmtA)))
          match bad with
          | some w =>
            let p := { nd.pad with parityLoc := if bit nd.pad.parityLoc 63 then nd.pad.parityLoc else parityLocWord n w,
                                   parityErrors := satAdd nd.pad.parityErrors 1 }
            mFault { nd with pad := p } 0x13 c.idx o.g 0 (w / 256)
          | none =>
            match planeFor nd g with
            | none => nd
            | some (plane, spill) =>
              let nd := if spill then (match Table.find? nd.mc.planes plane with | some gi => spillGroup nd gi | none => nd) else nd
              let nd := takePlane nd o.g plane
              let g := nd.mc.group o.g
              let a := match g.anchor with | some a => a | none => groupAnchor nd.pad g ((g.scanned).getD [])
              let fl := flightOf nd.pad g a o c.idx g.issued
              let m := nd.mc.setGroup o.g { g with anchor := some a, issued := g.issued + 1 }
              let pre := if o.reuse then 0 else 512
              { nd with
                mc := { (m.mapWin (fun d => match d.pass with | some q => q.seq == o.seq && !d.done | none => false) (fun d => { d with issued := true })) with
                  flights := m.flights ++ [fl]
                  shadow := true
                  preload := satAdd m.preload pre
                  prodTrunc := satAdd m.prodTrunc fl.truncs
                  anchorClamp := satAdd m.anchorClamp fl.clamps }
                pat := nd.pat.addWork pre })

/-- The accumulators after a pass lands: sums and physical errors added, then folded in a multi-pass group (R46, R78). -/
def landPass (g : Group) (fl : Flight) (err : ArrayError) (cols : Nat) : List Acc :=
  (List.zip g.acc fl.sums).zipIdx.map (fun x =>
    let d := (err.deltas.filter (fun e => e.1 * cols + e.2.1 == x.2)).foldl (fun a e => a + e.2.2) (0 : Int)
    let v := x.1.1.v + x.1.2.v + d
    ⟨if 1 < g.passes then (v / 2 ^ 36) * 2 ^ 36 else v, spJoin x.1.1.sp x.1.2.sp⟩)
/-- Folds that drop nonzero bits (R46). -/
def foldDrops (g : Group) (fl : Flight) (err : ArrayError) (cols : Nat) : Nat :=
  if 1 < g.passes then
    ((List.zip g.acc fl.sums).zipIdx.countP (fun x =>
      let d := (err.deltas.filter (fun e => e.1 * cols + e.2.1 == x.2)).foldl (fun a e => a + e.2.2) (0 : Int)
      (x.1.1.v + x.1.2.v + d) % 2 ^ 36 != 0))
  else 0

/-- Rows (columns) whose check fails (R100, R101). -/
def badRowsOf (fl : Flight) (err : ArrayError) : List Nat :=
  (List.range fl.rows).filter (fun i =>
    err.specials.any (fun e => e.1 == i) ||
    (fl.clampRow.getD i 0 == 0 && !checkPasses (fl.truncRow.getD i 0) (fl.lrow.getD i 0)
      ((err.deltas.filter (fun e => e.1 == i)).foldl (fun a e => a + e.2.2) 0)))
def badColsOf (cols : Nat) (fl : Flight) (err : ArrayError) : List Nat :=
  (List.range cols).filter (fun c =>
    err.specials.any (fun e => e.2 == c) ||
    (fl.clampCol.getD c 0 == 0 && !checkPasses (fl.truncCol.getD c 0) (fl.lcol.getD c 0)
      ((err.deltas.filter (fun e => e.2.1 == c)).foldl (fun a e => a + e.2.2) 0)))

/-- MC_FAULT_LOC (R110). -/
def mLoc (row col : Option Nat) (ord : Nat) : U64 :=
  mkWord 64 ([(0, ord % 64)] ++ (match row with | some r => [(17, r), (16, 1)] | none => []) ++ (match col with | some c => [(7, c), (6, 1)] | none => []))

/-- A spare row or column not in repair use is there to sweep (R104). -/
def spareFree (rep : Table Nat) (bad : List Nat) : Bool := (List.range 8).any (fun k => !Table.has rep k && !bad.contains (512 + k))

/-- The last row of the oldest pass in flight lands: fold, counters, checks and the sweep (R46, R78, R89, R99 to R105). -/
def execPassComplete (n : NodeId) (err : ArrayError) (s : State) : Res :=
  nodeOnly [.m] n s (fun nd =>
    match nd.mc.flights with
    | [] => nd
    | fl :: rest =>
      if nd.fenced || nd.resetting || nd.parked then nd
      else
        let g := nd.mc.group fl.g
        let cols := 32 * (g.ncols + 1)
        let rows := badRowsOf fl err
        let cs := badColsOf cols fl err
        let sweepRow := err.sweepRow && nd.mc.sweepEn && spareFree nd.mc.rowRep nd.mc.badRows
        let sweepCol := err.sweepCol && nd.mc.sweepEn && spareFree nd.mc.colRep nd.mc.badCols
        let sweep := sweepRow || sweepCol
        let ck := !rows.isEmpty || !cs.isEmpty
        let work := fl.interval * fl.rows
        let m := nd.mc
        let m := { m.setGroup fl.g { g with acc := landPass g fl err cols, completed := g.completed + 1 } with
          flights := rest
          shadow := !rest.isEmpty
          stream := satAdd m.stream work
          ppadTrunc := satAdd m.ppadTrunc (foldDrops g fl err cols)
          ckBounded := satAdd m.ckBounded (b2n ((fl.truncRow ++ fl.truncCol).any (fun t => decide (1 < t))))
          ckUnchecked := satAdd m.ckUnchecked ((fl.clampRow ++ fl.clampCol).countP (fun t => t != 0))
          sweepJ := (m.sweepJ + 1) % cols
          sweepK := (m.sweepK + 1) % (32 * (fl.kblk + 1))
          ckMismatch := satAdd m.ckMismatch (b2n ck)
          sweepMismatch := satAdd m.sweepMismatch (b2n sweep) }
        let m := m.mapWin (fun d => match d.pass with | some o => o.seq == fl.seq | none => false) (fun d => { d with done := true })
        let nd := { nd with mc := m.prune, pat := nd.pat.addWork work }
        if ck || sweep then
          let col := cs.head?
          let repeated := match col with
            | some c => nd.hist.any (fun h => h.1 == 0x10 && h.2.2 == c && decide (nd.pat.current.toNat < h.2.1 + 64))
            | none => false
          let many := decide (1 < cs.length)
          let nd := { nd with mc := { nd.mc with
            drains := nd.mc.drains.filter (fun d => d.g != fl.g)
            diagDue := if sweep || many || repeated then some (sweepRow || !rows.isEmpty, sweepCol || !cs.isEmpty) else nd.mc.diagDue } }
          if ck then mFault nd 0x10 fl.idx fl.g (mLoc rows.head? col fl.ord) (col.getD 512)
          else mFault nd 0x11 fl.idx fl.g (mLoc (if sweepRow then some m.sweepK else none) (if sweepCol then some m.sweepJ else none) fl.ord) 512
        else nd)

/-- The first RELEASE whose earlier readers of its slots are done (R86); `before` are the commands ahead of it. -/
def readyRelease (nd : Node) (before : List WinCmd) : List WinCmd → Option WinCmd
  | [] => none
  | c :: t =>
    if fld c.word 127 124 == 4 && !c.done &&
      !(before.any (fun d => !d.done && (match d.pass with
          | some o => (passSlots (nd.mc.group o.g) o).any (fun k => (releaseSlots c.word).contains k)
          | none => fld d.word 127 124 == 3 && fld c.word 123 122 == 1))) then some c
    else readyRelease nd (before ++ [c]) t

/-- A RELEASE at the head of those whose earlier readers are done clears FILLED (R86, R170). -/
def execReleaseTakesEffect (n : NodeId) (s : State) : Res :=
  nodeOnly [.m] n s (fun nd =>
    if !(nd.live && nd.mc.run) then nd
    else
    match readyRelease nd [] nd.mc.window with
    | none => nd
    | some c =>
      { nd with
        events := nd.events + 1
        pad := nd.pad.unfill (releaseSlots c.word)
        mc := (nd.mc.mapWin (fun d => d == c) (fun d => { d with done := true })).prune })

end Sys2Proof.Machine
end

