-- ==== Sys2Proof/Machine/Mem.lean ====
section
/-! DEFINITION. Module memory: Lining and Bolt with their encryption, authentication and poison, partition translation, and
Lining-as-cache (R265 to R289, R312 to R314). -/

namespace Sys2Proof.Machine
open Sys2Proof

/-- Lining physical address of an L node's local offset (R260). -/
def linBase (l : Nat) : Nat := l * 0x200000000
def State.ln (s : State) (l : Nat) : LNode := (s.node (lNode l)).ln
def State.updLn (s : State) (l : Nat) (f : LNode → LNode) : State := s.updNode (lNode l) (fun d => { d with ln := f d.ln })

/-- A fault that an L node records and goes on serving (R275, R282, R286): the step is vetoed. -/
def Node.recordL (nd : Node) (code : Nat) (loc : U64) : Node :=
  let r := nd.raiseL code 0 none loc
  { r with halted := nd.halted }

/-- LN_FAULT_LOC (R316). -/
def lnLoc (bolt : Bool) (line : Nat) : U64 := mkWord 64 [(39, b2n bolt), (38, 1), (0, line)]

/-- MEM key of an epoch in an L node's key slots (R288). -/
def LNode.key (x : LNode) (epoch : Nat) : Option (List Byte) :=
  match x.keyCur, x.keyPrev with
  | some (e, k), p => if e = epoch then some k else (match p with | some (e, k) => if e = epoch then some k else none | none => none)
  | none, some (e, k) => if e = epoch then some k else none
  | none, none => none
/-- The slot whose epoch's low 4 bits match a Bolt line (R288). -/
def LNode.keyLow (x : LNode) (low : Nat) : Option (List Byte) :=
  match x.keyCur with
  | some (e, k) => if e % 16 = low then some k else (match x.keyPrev with | some (e, k) => if e % 16 = low then some k else none | none => none)
  | none => (match x.keyPrev with | some (e, k) => if e % 16 = low then some k else none | none => none)
/-- The current epoch of an L node's key slots; 0 with no key. -/
def LNode.epoch (x : LNode) : Nat := match x.keyCur with | some (e, _) => e | none => 0

/-- Lining lines as they are stored, and their plaintext under an XTS key (R284): `a` is a Lining physical address. -/
def linRaw (s : State) (a n : Nat) : List Byte := s.lining.bytes a n
def linRead (s : State) (key : Option (List Byte)) (a n : Nat) : List Byte :=
  match key with
  | none => linRaw s a n
  | some k => (((linesOf a n).flatMap (fun l => aesXts false (k.take 64) l (s.lining.bytes (64 * l) 64))).drop (a % 64)).take n
/-- 64 KiB pages of the region that [a, a+n) touches, local to their L node. -/
def linPages (a n : Nat) : List Nat := if n = 0 then [] else rangeFrom (a / 65536) ((a + n - 1) / 65536 - a / 65536 + 1)
/-- Some byte of the range lies in a poisoned page (R276); pages are numbered over the whole Lining. -/
def linPoisoned (s : State) (a n : Nat) : Bool := (linPages a n).any (fun p => (s.ln (p / 131072)).poison.contains (p % 131072))
/-- Bytes written to the Lining, encrypted under a key where one is given (R284); one write that replaces a whole 64 KiB page clears its
poison (R279). -/
def linWrite (s : State) (key : Option (List Byte)) (a : Nat) (bs : List Byte) : State :=
  let stored := match key with
    | none => bs
    | some k =>
      let ls := linesOf a bs.length
      let old := ls.flatMap (fun l => aesXts false (k.take 64) l (s.lining.bytes (64 * l) 64))
      let merged := old.take (a % 64) ++ bs ++ old.drop (a % 64 + bs.length)
      (ls.zip (chunks 64 ls.length merged)).flatMap (fun x => aesXts true (k.take 64) x.1 x.2)
  let s1 := { s with lining := s.lining.write (match key with | none => a | some _ => a / 64 * 64) stored }
  if a % 65536 = 0 ∧ bs.length = 65536 then
    s1.updLn (a / 0x200000000) (fun x => { x with poison := setDel x.poison (a / 65536 % 131072) })
  else s1

/-- An uncorrectable word poisons its 64 KiB page (R272, R275); `w` is a Lining physical byte address. -/
def linStrike (s : State) (w : Nat) : State :=
  let l := w / 0x200000000
  let pg := w / 65536 % 131072
  s.updNode (lNode l) (fun d =>
    let d := { d with ln := { d.ln with
      eccUncorrected := satAdd d.ln.eccUncorrected 1
      pagesPoisoned := if d.ln.poison.contains pg then d.ln.pagesPoisoned else satAdd d.ln.pagesPoisoned 1
      poison := setIns d.ln.poison pg } }
    d.recordL 0x1E (lnLoc false (w % 0x200000000 / 64)))
/-- A struck word inside the range that a read covers. -/
def linStrikeIn (s : State) (a n : Nat) (struck : Option Nat) : State :=
  match struck with
  | some w => if decide (a ≤ w) && decide (w < a + n) then linStrike s w else s
  | none => s

/-- GCM nonce of a Bolt line (R285): version in [95:64], offset >> 6 in [63:27]. -/
def boltNonce (version line : Nat) : List Byte := leBytes 12 (version * 2 ^ 64 + (line % 2 ^ 37) * 2 ^ 27)
/-- Additional data of a Bolt line (R285). -/
def boltAad (meta0 line : Nat) : List Byte := BitVec.ofNat 8 meta0 :: leBytes 7 line
/-- The metadata of a line (R280). -/
def boltWord (tag : List Byte) (meta0 : Nat) : U64 := BitVec.ofNat 64 (leNat (tag.take 7) * 256 + meta0)

/-- The package of a Bolt offset is in service (R261, R435). -/
def boltLive (s : State) (o : Nat) : Bool := !s.stw.f.boltLost.contains (o / 0x1000000000)

/-- A Bolt line as an L node reads and verifies it (R282, R285, R287): its plaintext, or none when it fails. -/
def boltLine (s : State) (l : Nat) (version line : Nat) : Option (List Byte) :=
  let m := (Table.get 0 s.boltMeta line).toNat
  let d := s.bolt.bytes (64 * line) 64
  if !boltLive s (64 * line) then none
  else if m = 0 ∧ d.all (· == 0) then some d
  else if m / 8 % 2 = 1 then
    match (s.ln l).keyLow (m / 16 % 16) with
    | none => none
    | some k =>
      let gk := (k.drop 64).take 32
      if boltWord (gcmTag gk (boltNonce version line) (boltAad (m % 256) line) d) (m % 256) = BitVec.ofNat 64 m
      then some (gcmCtr gk (boltNonce version line) 2 d) else none
  else if boltWord (gcmTag s.sec.operatorKey (boltNonce 0 line) (boltAad (m % 256) line ++ d) []) (m % 256) = BitVec.ofNat 64 m then some d
  else none

/-- A Bolt line written (R285, R287). -/
def boltPut (s : State) (prot : Option (Nat × List Byte)) (version line : Nat) (d : List Byte) : State :=
  match prot with
  | some (e, k) =>
    let m := (e % 16) * 16 + 8
    let gk := (k.drop 64).take 32
    let c := gcmCtr gk (boltNonce version line) 2 d
    { s with bolt := s.bolt.write (64 * line) c,
             boltMeta := Table.put s.boltMeta line (boltWord (gcmTag gk (boltNonce version line) (boltAad m line) c) m) }
  | none =>
    { s with bolt := s.bolt.write (64 * line) d,
             boltMeta := Table.put s.boltMeta line (boltWord (gcmTag s.sec.operatorKey (boltNonce 0 line) (boltAad 0 line ++ d) []) 0) }

/-- The version counter of a 4 KiB Bolt page: its Lining address, from VCTR in 2 KiB units (R266, R286). -/
def vctrAddr (vctr o : Nat) : Nat := 2048 * vctr + 4 * (o / 4096 % 512)
def vctrGet (s : State) (vctr o : Nat) : Nat := s.lining.num (vctrAddr vctr o) 4

/-- A Bolt line that fails its tag counts and is recorded, where its package is in service (R282). -/
def boltFail (s : State) (l line : Nat) : State :=
  if boltLive s (64 * line) then
    s.updNode (lNode l) (fun nd => ({ nd with ln := { nd.ln with boltMacFail := satAdd nd.ln.boltMacFail 1 } } : Node).recordL 0x1F (lnLoc true line))
  else s
/-- The lines of [o, o + n) of one 4 KiB Bolt page read by L node l (R282, R286): their plaintext and whether any is poisoned. -/
def boltLines (s : State) (l : Nat) (prot : Bool) (vctr o n : Nat) : State × List Byte × Bool :=
  let v := vctrGet s vctr o
  let ls := linesOf o n
  if prot && v == 0 then (s, List.replicate (64 * ls.length) 0, false)
  else
    ls.foldl (fun (r : State × List Byte × Bool) i =>
      match boltLine r.1 l (if prot then v else 0) i with
      | some d => (r.1, r.2.1 ++ d, r.2.2)
      | none => (boltFail r.1 l i, r.2.1 ++ List.replicate 64 0, true)) (s, [], false)
/-- A 4 KiB Bolt page read by L node l (R286): plaintext and whether it is poisoned. -/
def boltPageRead (s : State) (l : Nat) (prot : Bool) (vctr o : Nat) : State × List Byte × Bool := boltLines s l prot vctr o 4096

/-- A 4 KiB Bolt page written by L node l under the current key (R286, R576). None: the counter would pass its maximum (VERSION_WRAP). -/
def boltPageWrite (s : State) (l : Nat) (prot : Bool) (vctr o : Nat) (bs : List Byte) : Option State :=
  if prot then
    match (s.ln l).keyCur with
    | none => some s
    | some (e, k) =>
      let old := vctrGet s vctr o
      let low := (Table.get 0 s.boltMeta (o / 64)).toNat / 16 % 16
      let v := if old ≠ 0 ∧ low ≠ e % 16 then 1 else old + 1
      if v ≥ 2 ^ 32 then none
      else
        let s := { s with lining := s.lining.write (vctrAddr vctr o) (leBytes 4 v) }
        some ((List.range 64).foldl (fun s i => boltPut s (some (e, k)) v (o / 64 + i) ((bs.drop (64 * i)).take 64)) s)
  else some ((List.range 64).foldl (fun s i => boltPut s none 0 (o / 64 + i) ((bs.drop (64 * i)).take 64)) s)

/-- MEM(e) (R572). -/
def memKey (master : List Byte) (e : Nat) : List Byte := hkdf384 [] master ([0x4D, 0x45, 0x4D] ++ leBytes 2 e) 96
/-- A rotation may begin (R575), the walker aside. -/
def mayRotate (s : State) (p : Nat) : Bool :=
  let x := s.part p
  (s.cfg p).prot && x.keys.installed && [PartState.armed, .running, .paused, .faulted].contains x.state && decide (x.keys.epoch < 0xFFFF)
/-- A rotation (R575): in every L node of the partition the current key slot becomes the previous one, and MEM(e + 1) is current. -/
def rotateKeys (s : State) (p : Nat) : State :=
  let e := (s.part p).keys.epoch + 1
  let k := memKey (s.part p).keys.master e
  let s := s.updPart p (fun x => { x with keys := { x.keys with epoch := e, walking := true, walkTarget := e, walkBad := [], wrapHeld := false } })
  ((s.cfg p).lnodes).foldl (fun s l => s.updLn l (fun x => { x with keyPrev := x.keyCur, keyCur := some (e, k) })) s
/-- VERSION_WRAP at an L node: the step vetoes and the steward rotates the domain's keys, the request held while the walker runs (R286, R579). -/
def versionWrap (s : State) (p l : Nat) : State :=
  let s := s.updNode (lNode l) (fun nd => nd.recordL 0x20 0)
  if (s.part p).keys.walking then s.updPart p (fun x => { x with keys := { x.keys with wrapHeld := true } })
  else if mayRotate s p then rotateKeys s p else s
/-- The keys of a partition put into the slots of its L nodes: the current epoch's, and the previous one's while the walker has pages to move
(R572, R574, R576). -/
def installKeys (s : State) (p : Nat) : State :=
  let x := (s.part p).keys
  if !x.installed then s
  else
    let cur := memKey x.master x.epoch
    let prev := if x.walking then some (x.epoch - 1, memKey x.master (x.epoch - 1)) else none
    ((s.cfg p).lnodes).foldl (fun s l => s.updLn l (fun y => { y with keyCur := some (x.epoch, cur), keyPrev := prev })) s

/-- PTT entry fields (R266). -/
def pttValid (e : U64) : Bool := bit e 63
def pttBolt (e : U64) : Bool := bit e 62
def pttWrite (e : U64) : Bool := bit e 61
def pttSet (e : U64) : Nat := fld e 60 58
def pttOffset (e : U64) : Nat := fld e 57 37
def pttEpoch (e : U64) : Nat := fld e 36 21
def pttBpage (e : U64) : Nat := fld e 60 39
def pttVctr (e : U64) : Nat := fld e 38 9
def pttCache (e : U64) : Bool := bit e 8

/-- Where a byte of a partition address lies (R265 to R268). -/
inductive Xlate where
  /-- Lining physical address, and the page's key epoch. -/
  | lining (a epoch : Nat)
  /-- Bolt physical offset, VCTR, cached. -/
  | bolt (o vctr : Nat) (cached : Bool)
  | unmapped
  deriving DecidableEq, Repr

/-- Translation of a partition address (R265, R268); a write needs WRITE (R271). -/
def xlate (s : State) (p pa : Nat) (write : Bool) : Xlate :=
  let e := Table.get 0 (s.part p).pl.ptt (pa / 0x200000)
  if !pttValid e || (write && !pttWrite e) || (s.part p).pl.unmapping.contains (pa / 0x200000) then .unmapped
  else if pttBolt e then .bolt (pttBpage e * 0x200000 + pa % 0x200000) (pttVctr e) (pttCache e)
  else
    let ms := (s.cfg p).stripe (pttSet e)
    let j := pa % 0x200000 / 4096
    if ms.length = 0 then .unmapped
    else .lining (linBase (nth 0 ms (j % ms.length)) + (pttOffset e + j / ms.length) * 4096 + pa % 4096) (pttEpoch e)

/-- The pieces of [a, a+n) within 4 KiB granules. -/
def granules : Nat → Nat → Nat → List (Nat × Nat)
  | 0, _, _ => []
  | fuel + 1, a, n =>
    if n = 0 then [] else
      let k := min n (4096 - a % 4096)
      (a, k) :: granules fuel (a + k) (n - k)
def pieces (a n : Nat) : List (Nat × Nat) := granules (n / 4096 + 2) a n

/-- Every byte of the range translates for the access (R271). -/
def mapped (s : State) (p pa n : Nat) (write : Bool) : Bool := (pieces pa n).all (fun x => xlate s p x.1 write != .unmapped)

/-- The cache member and set of a partition Bolt page (R312). -/
def cacheAt (s : State) (p q : Nat) : Option (Nat × Nat) :=
  let c := (s.cfg p).cacheSet
  let gib := fld c 10 8
  let ms := (s.cfg p).stripe (fld c 2 0)
  if gib = 0 ∨ ms.length = 0 then none
  else some (nth 0 ms (q % ms.length), q / ms.length % (gib * 0x40000000 / 65536))

/-- A dirty line written back as a whole page (R313). -/
def cacheBack (s : State) (l : Nat) (c : CacheLine) : State :=
  if !c.dirty then s
  else
    match xlate s c.part (0x20000000000 + c.page * 4096) true with
    | .bolt o v _ =>
      match boltPageWrite s l (s.cfg c.part).prot v o c.data with
      | some s => s
      | none => versionWrap s c.part l
    | _ => s

/-- A cached page brought in and made most recently used (R312, R313). -/
def cacheTouch (s : State) (p l set q o v : Nat) : State :=
  match takeFirst (fun c : CacheLine => c.part == p && c.page == q) (s.ln l).cache with
  | some (c, rest) => s.updLn l (fun x => { x with cache := rest ++ [c], cacheHits := satAdd x.cacheHits 1 })
  | none =>
    let s := s.updLn l (fun x => { x with cacheMisses := satAdd x.cacheMisses 1 })
    let r := boltPageRead s l (s.cfg p).prot v o
    let s := r.1
    let full := decide (16 ≤ ((s.ln l).cache.filter (fun c => c.set == set)).length)
    let s := if full then
        match takeFirst (fun c : CacheLine => c.set == set) (s.ln l).cache with
        | some (c, rest) => cacheBack (s.updLn l (fun x => { x with cache := rest })) l c
        | none => s
      else s
    s.updLn l (fun x => { x with cache := x.cache ++ [⟨p, set, q, false, r.2.2, r.2.1⟩] })

/-- What a read of partition memory gave: the state after it, the bytes and whether any was poisoned. -/
structure MemRead where
  s : State
  data : List Byte
  poison : Bool

/-- n bytes (within one 4 KiB granule) of partition memory in plaintext, as its L node reads them (R271 to R288, R313). -/
def partPiece (s : State) (p pa n : Nat) : MemRead :=
  match xlate s p pa false with
  | .unmapped => ⟨s, List.replicate n 0, false⟩
  | .lining a e =>
    if (s.cfg p).prot then
      match (s.ln (a / 0x200000000)).key e with
      | some k => ⟨s, linRead s (some k) a n, linPoisoned s a n⟩
      | none => ⟨linStrike s a, List.replicate n 0, true⟩
    else ⟨s, linRaw s a n, linPoisoned s a n⟩
  | .bolt o v c =>
    let q := (pa - 0x20000000000) / 4096
    match (if c then cacheAt s p q else none) with
    | some (l, set) =>
      let s := cacheTouch s p l set q (o / 4096 * 4096) v
      match (s.ln l).cache.find? (fun c => c.part == p && c.page == q) with
      | some c => ⟨s, (c.data.drop (pa % 4096)).take n, c.poison⟩
      | none => ⟨s, List.replicate n 0, false⟩
    | none =>
      let r := boltPageRead s (nth 0 (s.cfg p).lnodes 0) (s.cfg p).prot v (o / 4096 * 4096)
      ⟨r.1, (r.2.1.drop (pa % 4096)).take n, r.2.2⟩

/-- n bytes of partition memory in plaintext. -/
def partRead (s : State) (p pa n : Nat) : MemRead :=
  (pieces pa n).foldl (fun (r : MemRead) x =>
    let q := partPiece r.s p x.1 x.2
    ⟨q.s, r.data ++ q.data, r.poison || q.poison⟩) ⟨s, [], false⟩

/-- Bytes (within one granule) written to partition memory under the current key (R283, R284, R288, R313); a Lining write of a page at the
previous epoch keeps the page's epoch until the walker moves it. -/
def partPieceWrite (s : State) (p pa : Nat) (bs : List Byte) : State :=
  match xlate s p pa true with
  | .unmapped => s
  | .lining a e =>
    if (s.cfg p).prot then
      match (s.ln (a / 0x200000000)).key e with
      | some k => linWrite s (some k) a bs
      | none => s
    else linWrite s none a bs
  | .bolt o v c =>
    let q := (pa - 0x20000000000) / 4096
    match (if c then cacheAt s p q else none) with
    | some (l, set) =>
      let s := cacheTouch s p l set q (o / 4096 * 4096) v
      s.updLn l (fun x => { x with cache := x.cache.map (fun c =>
        if c.part = p ∧ c.page = q then { c with dirty := true, data := c.data.take (pa % 4096) ++ bs ++ c.data.drop (pa % 4096 + bs.length) } else c) })
    | none =>
      let l := nth 0 (s.cfg p).lnodes 0
      let r := boltPageRead s l (s.cfg p).prot v (o / 4096 * 4096)
      let page := r.2.1.take (pa % 4096) ++ bs ++ r.2.1.drop (pa % 4096 + bs.length)
      match boltPageWrite r.1 l (s.cfg p).prot v (o / 4096 * 4096) page with
      | some s => s
      | none => versionWrap r.1 p l

/-- Bytes written to partition memory. -/
def partWrite (s : State) (p pa : Nat) (bs : List Byte) : State :=
  ((pieces pa bs.length).foldl (fun (r : State × List Byte) x => (partPieceWrite r.1 p x.1 (r.2.take x.2), r.2.drop x.2)) (s, bs)).1

/-- n bytes of partition memory as stored: XTS ciphertext of Lining, data bits of Bolt lines without metadata (R540, R556). -/
def partStored (s : State) (p pa n : Nat) : List Byte :=
  (pieces pa n).flatMap (fun x =>
    match xlate s p x.1 false with
    | .unmapped => List.replicate x.2 0
    | .lining a _ => linRaw s a x.2
    | .bolt o _ _ => s.bolt.bytes o x.2)

/-- Release scrub of a Lining range of an L node: zeros written and poison bits cleared (R289). -/
def scrubLining (s : State) (a n : Nat) : State :=
  let s := { s with lining := s.lining.zero a n }
  (linPages a n).foldl (fun s p => if a ≤ 65536 * p ∧ 65536 * (p + 1) ≤ a + n then
      s.updLn (p / 131072) (fun x => { x with poison := setDel x.poison (p % 131072) }) else s) s
/-- Release scrub of a Bolt range (R289): data and metadata zero. -/
def scrubBolt (s : State) (o n : Nat) : State :=
  { s with bolt := s.bolt.zero o n, boltMeta := s.boltMeta.filter (fun e => decide (e.1 < o / 64 ∨ (o + n) / 64 ≤ e.1)) }

/-- Lining local offset o of L node l inside a page that a key epoch covers: the key of a partition's data there (R284). -/
def homeKey (s : State) (p l epoch : Nat) : Option (List Byte) := if (s.cfg p).prot then (s.ln l).key epoch else none

end Sys2Proof.Machine
end

