-- ==== Sys2Proof/Machine/VecMem.lean ====
section
/-! DEFINITION. Control instructions that need no other node (R220 to R224) and scratchpad loads and stores (R118, R171) of V and F cores. -/

namespace Sys2Proof.Machine
open Sys2Proof

/-- The fields a CTL operation does not name are zero, ETYPE apart, which the class ignores (R114, R116, R222, log 13). -/
def ctlClean (w : VWord) (a b c d imm : Nat) : Bool :=
  !vPen w && vPred w == 0 && !vSat w && !vRm w && vA w &&& (31 - a) == 0 && vB w &&& (31 - b) == 0 &&
  vC w &&& (31 - c) == 0 && vD w &&& (31 - d) == 0 && vImm w &&& (0xFFFFFF - imm) == 0

/-- LOOP's fields (R222). -/
def loopClean (w : VWord) : Bool := ctlClean w 0xF 0x1F 0xF 0x1F 0xC0FFFF

def Core.counter (c : Core) (i : Nat) : U32 := Table.get 0 c.counters i
def Core.reload (c : Core) (i : Nat) : U32 := Table.get 0 c.reloads i

/-- A value added to a rate point of the running step (R228). -/
def Pat.rate (p : Pat) (i v : Nat) : Pat := { p with runRates := Table.put p.runRates i (satAdd (Table.get 0 p.runRates i) v) }

def execCtlNop (n : NodeId) (w : VWord) (s : State) : Res :=
  vIssue n s (ctlClean w 0 0 0 0 0) true (fun _ s => .done s 1 none)

/-- LOOP COUNT (R223): IMM[23:22] is 0. -/
def execLoopCount (n : NodeId) (w : VWord) (s : State) : Res :=
  if vImmF w 23 22 ≠ 0 then .fault .otherRow
  else vIssue n s (loopClean w) true (fun nd s =>
    let i := vA w % 16
    let c := nd.core.counter i
    if 1 < c.toNat then coreDone n s 1 (some (vImmF w 15 0)) (fun k => { k with counters := Table.put k.counters i (c - 1) })
    else coreDone n s 1 none (fun k => { k with counters := Table.put k.counters i (k.reload i) }))
/-- LOOP LOAD (R223): IMM[23:22] is 1. -/
def execLoopLoad (n : NodeId) (w : VWord) (s : State) : Res :=
  if vImmF w 23 22 ≠ 1 then .fault .otherRow
  else vIssue n s (loopClean w) true (fun nd s =>
    let i := vA w % 16
    let v := fld (nd.core.scalar (vB w)) 31 0
    .done (s.updNode n (fun d => { d with
      core := { d.core with counters := Table.put d.core.counters i (BitVec.ofNat 32 v), reloads := Table.put d.core.reloads i (BitVec.ofNat 32 v) }
      pat := d.pat.rate (vC w % 16) v })) 1 none)
/-- LOOP READ (R223): IMM[23:22] is 2. -/
def execLoopRead (n : NodeId) (w : VWord) (s : State) : Res :=
  if vImmF w 23 22 ≠ 2 then .fault .otherRow
  else vIssue n s (loopClean w) true (fun nd s =>
    coreDone n s 1 none (fun k => k.setScalar (vD w) ((nd.core.counter (vA w % 16)).zeroExtend 64)))
/-- LOOP JUMP (R223): IMM[23:22] is 3. -/
def execLoopJump (n : NodeId) (w : VWord) (s : State) : Res :=
  if vImmF w 23 22 ≠ 3 then .fault .otherRow
  else vIssue n s (loopClean w) true (fun _ s => .done s 1 (some (vImmF w 15 0)))

/-- BRTOK (R224). -/
def execBrtok (n : NodeId) (w : VWord) (s : State) : Res :=
  vIssue n s (ctlClean w 0x1F 0x1F 0xF 0 0x1FFFFF) true (fun nd s =>
    let d := nd.core.scalar (vA w)
    let taken := fld d 27 26 == 1 && fld d 31 28 == vImmF w 19 16 &&
      (!bit w 20 || fld d 47 32 == fld (nd.core.scalar (vB w)) 15 0)
    if taken then .done (s.updNode n (fun x => { x with pat := x.pat.rate (vC w % 16) 1 })) 1 (some (vImmF w 15 0))
    else .done s 1 none)

/-- Loop counters and reloads loaded from a slot's CINIT, where KEEPC does not keep them (R220, R223). -/
def loadCinit (p : Pat) (slot : Nat) (keep : Nat) (c : Core) : Core :=
  (List.range 16).foldl (fun c i =>
    if (keep >>> i) % 2 = 1 then c
    else
      let v := BitVec.ofNat 32 (p.hdr slot (32 + 4 * i) 4)
      { c with counters := Table.put c.counters i v, reloads := Table.put c.reloads i v }) c

/-- SLOT switches to another pattern of the same configuration (R220). -/
def execSlot (n : NodeId) (w : VWord) (s : State) : Res :=
  vIssue n s (ctlClean w 0 0 0 0 3) true (fun nd s =>
    let k := vImmF w 1 0
    let p := nd.pat
    if !p.loaded.contains k || p.slotCtag k != p.ctag then .fault s 0x19 0 0
    else
      .done (s.updNode n (fun d => { d with
        core := loadCinit p k (p.hdr k 26 2) d.core
        pat := { d.pat with active := k, slotSwitches := satAdd d.pat.slotSwitches 1 } })) 1 (some (p.entry k)))

/-- The 32 row addresses of LDT and STT, when R118 allows them. -/
def tileRows (n : NodeId) (c : Core) (w : VWord) : Option (List Nat) :=
  let base := (c.scalar (vA w)).toNat + vImm w
  let stride := (c.scalar (vB w)).toNat
  if base % 64 = 0 ∧ stride % 64 = 0 ∧ base + 31 * stride + 128 ≤ padBytes n then some ((List.range 32).map (fun r => base + r * stride))
  else none

/-- The narrow-read checks of several rows as one access: fill tags of all rows, then parity in row order (R171, R160). -/
def padReadRows (n : NodeId) (p : Pad) (rows : List Nat) (len : Nat) (struck : Option Nat) : Pad × Access :=
  let p := match struck with
    | some w => if p.valid.contains (w / 16) then { p with bad := setIns p.bad w } else p
    | none => p
  let bad := rows.findSome? (fun a => p.unfilled a len)
  match (if p.checked then bad else none) with
  | some k => ({ p with fillFaultLoc := if bit p.fillFaultLoc 63 then p.fillFaultLoc else fillLocWord n k false }, .stop 0x09 0)
  | none =>
    let p := if bad.isSome then { p with rbfUnchecked := satAdd p.rbfUnchecked 1 } else p
    match rows.findSome? (fun a => p.badWord a len) with
    | some w => ({ p with parityLoc := if bit p.parityLoc 63 then p.parityLoc else parityLocWord n w,
                          parityErrors := satAdd p.parityErrors 1 }, .stop 0x13 (w / 256))
    | none => (p, .ok)

/-- The write check of several rows as one access (R171, R172). -/
def padWriteRows (n : NodeId) (p : Pad) (rows : List Nat) (len : Nat) : Pad × Access :=
  match rows.findSome? (fun a => p.undrained a len) with
  | some k =>
    if p.checked then ({ p with fillFaultLoc := if bit p.fillFaultLoc 63 then p.fillFaultLoc else fillLocWord n k true }, .stop 0x0A 0)
    else ({ p with obdUnchecked := satAdd p.obdUnchecked 1 }, .ok)
  | none => (p, .ok)

/-- The pad of a node after an access check. -/
def setPad (n : NodeId) (s : State) (p : Pad) : State := s.updNode n (fun d => { d with pad := p })

/-- LDT (R118). -/
def execLdt (n : NodeId) (w : VWord) (struck : Option Nat) (s : State) : Res :=
  vIssue n s true true (fun nd s =>
    match tileRows n nd.core w with
    | none => .fault s 0x05 0 0
    | some rows =>
      match padReadRows n nd.pad rows 128 struck with
      | (p, .stop code tag) => .fault (setPad n s p) code 0 tag
      | (p, .ok) =>
        coreDone n (setPad n s p) (tileCharge n 4) none (fun c => writeTile w 8 c ((rows.flatMap (fun a => p.read a 128)).map (fun b => (b.toNat, false)))))
/-- STT (R118); PEN applies to what a tile instruction writes in a tile register, not to a store (R117). -/
def execStt (n : NodeId) (w : VWord) (s : State) : Res :=
  vIssue n s true true (fun nd s =>
    match tileRows n nd.core w with
    | none => .fault s 0x05 0 0
    | some rows =>
      match padWriteRows n nd.pad rows 128 with
      | (p, .stop code tag) => .fault (setPad n s p) code 0 tag
      | (p, .ok) =>
        let bs := chunks 128 32 (tileBytes (nd.core.tile (vD w)))
        .done (setPad n s ((rows.zip bs).foldl (fun p r => p.write r.1 r.2) p)) (tileCharge n 4) none)

/-- The address of LDS and STS, when R118 allows it. -/
def scalarAddr (n : NodeId) (c : Core) (w : VWord) : Option Nat :=
  let a := (c.scalar (vA w)).toNat + vImm w
  if a % 8 = 0 ∧ a + 8 ≤ padBytes n then some a else none

/-- LDS (R118). -/
def execLds (n : NodeId) (w : VWord) (struck : Option Nat) (s : State) : Res :=
  vIssue n s true true (fun nd s =>
    match scalarAddr n nd.core w with
    | none => .fault s 0x05 0 0
    | some a =>
      match padReadCheck n nd.pad a 8 struck with
      | (p, .stop code tag) => .fault (setPad n s p) code 0 tag
      | (p, .ok) => coreDone n (setPad n s p) (tileCharge n 4) none (fun c => c.setScalar (vD w) (BitVec.ofNat 64 (leNat (p.read a 8)))))
/-- STS (R118). -/
def execSts (n : NodeId) (w : VWord) (s : State) : Res :=
  vIssue n s true true (fun nd s =>
    match scalarAddr n nd.core w with
    | none => .fault s 0x05 0 0
    | some a =>
      match padWriteCheck n nd.pad a 8 with
      | (p, .stop code tag) => .fault (setPad n s p) code 0 tag
      | (p, .ok) => .done (setPad n s (p.write a (leBytes 8 (nd.core.scalar (vD w)).toNat))) (tileCharge n 4) none)

end Sys2Proof.Machine
end

