-- ==== Sys2Proof/Machine/Chan.lean ====
section
/-! DEFINITION. Channels: sending and let-out, deposits and visibility, release and credit, and broken ends (R173 to R198, R225, R242, R248,
R371, R673, R677). -/

namespace Sys2Proof.Machine
open Sys2Proof

/-- Header fields of a record (R180). -/
def rhSeq (h : U128) : Nat := fld h 127 112
def rhEp (h : U128) : Nat := fld h 111 104
def rhX (h : U128) : Nat := fld h 103 96
def rhY (h : U128) : Nat := fld h 95 88
def rhTokval (h : U128) : Nat := fld h 87 72
def rhToken (h : U128) : Nat := fld h 71 68
def rhKind (h : U128) : Nat := fld h 67 66
def rhCtag (h : U128) : Nat := fld h 65 64
def rhWoff (h : U128) : Nat := fld h 63 47
def rhLen (h : U128) : Nat := fld h 46 33
def rhFill (h : U128) : Bool := bit h 32
def rhNotify (h : U128) : Bool := bit h 31
def rhLetout (h : U128) : Bool := bit h 30
def rhPoison (h : U128) : Bool := bit h 29
/-- A stored header: SRC_X, SRC_Y and LETOUT as zero (R186, R548). -/
def storedHdr (h : U128) : U128 := setFld (setFld h 103 88 0) 30 30 0

/-- What a sender asks to send. -/
structure OutRec where
  kind : Nat
  token : Nat := 0
  tokval : Nat := 0
  woff : Nat := 0
  fill : Bool := false
  notify : Bool := false
  poison : Bool := false
  data : List Byte := []

/-- A record header (R180). -/
def mkHdr (seq ep x y ctag : Nat) (r : OutRec) : U128 :=
  mkWord 128 [(112, seq % 65536), (104, ep), (96, x), (88, y), (72, r.tokval % 65536), (68, r.token % 16), (66, r.kind % 4), (64, ctag % 4),
    (47, r.woff % 2 ^ 17), (33, r.data.length % 2 ^ 14), (32, b2n r.fill), (31, b2n r.notify), (29, b2n r.poison)]

/-- Ring bytes of a record of n payload bytes (R179). -/
def recBytes (n : Nat) : Nat := 64 + 64 * ((n + 63) / 64)

/-- A notified window record: data with FILL and NOTIFY, or a token (R191). -/
def isNotified (r : OutRec) : Bool := r.kind == 1 || (r.fill && r.notify)

/-- Credit that a ring record of s bytes needs at write offset w of a ring of `size` bytes: with the tail when it does not fit (R184, R185). -/
def ringNeed (size w s : Nat) : Nat := if s ≤ size - w then s else (size - w) + s
/-- The write offset after it. -/
def ringNext (size w s : Nat) : Nat := if s ≤ size - w then (if w + s = size then 0 else w + s) else s

/-- Whether an endpoint may send the record now (R184, R185, R191). -/
def creditFor (o : Ep) (r : OutRec) : Bool :=
  if outMode o.desc = 1 then decide (ringNeed (4096 * outSize o.desc) o.ptr (recBytes r.data.length) ≤ o.credit)
  else !isNotified r || decide (1 ≤ o.credit)

/-- Where an output descriptor sends: a node, or a Host hem (R177, R541, R548). -/
def outDest (s : State) (n : NodeId) (d : U128) : Dest :=
  if fld d 127 120 = 0xFF then hostDest s n s.stw.hostB else ⟨nodeAt (fld d 127 120) (fld d 119 112), 0⟩
def outWay (d : U128) : Way := ⟨bit d 101, fld d 100 93, fld d 92 85⟩

/-- A RECORD packet of an output endpoint (R362, R370). -/
def injectRecord (s : State) (n : NodeId) (d hdr : U128) (data : List Byte) : State :=
  inject s n (mkRoute n (outDest s n d) (outWay d) tyRecord 0 (((s.node n).part).getD 16) (flitsOf data.length)) hdr data

/-- A record sent directly, its credit at hand: the skip marker first where it does not fit (R184, R185, R191). -/
def putRecord (s : State) (n : NodeId) (ep : Nat) (hdr : U128) (data : List Byte) (notified : Bool) : State :=
  let o := (s.node n).outEp ep
  if outMode o.desc = 1 then
    let size := 4096 * outSize o.desc
    let sz := recBytes data.length
    let skip := decide (size - o.ptr < sz)
    let s := if skip then
        injectRecord s n o.desc (setFld (setFld (setFld (setFld hdr 87 68 0) 67 66 2) 63 33 0) 32 29 0) []
      else s
    let s := s.updNode n (fun d => d.setOut ep { o with credit := o.credit - ringNeed size o.ptr sz, ptr := ringNext size o.ptr sz,
                                                        skips := if skip then satAdd o.skips 1 else o.skips })
    injectRecord s n o.desc hdr data
  else
    let s := s.updNode n (fun d => d.setOut ep { o with credit := if notified then o.credit - 1 else o.credit })
    injectRecord s n o.desc hdr data

/-- A let-out entry (R247). -/
structure LetEntry where
  l : Nat
  off : Nat
  units : Nat

/-- The let-out entry of an output endpoint in a slot's channel map (R176, R247). -/
def letEntryIn (n : NodeId) (p : Pat) (k ep : Nat) : Option LetEntry :=
  let base := if kindOf n = .l then 4096 else 2048
  ((List.range ((p.hdr k 16 2 - base) / 16)).map (fun i =>
      let w : U128 := BitVec.ofNat 128 ((p.image k).num (p.hdr k 14 2 + base + 16 * i) 16)
      (fld w 127 122, (⟨fld w 121 114, fld w 113 93, fld w 92 76⟩ : LetEntry)))).findSome?
    (fun x => if x.1 = ep ∧ 0 < x.2.units then some x.2 else none)
/-- The let-out entry of an output endpoint of the running configuration. -/
def letEntry (n : NodeId) (nd : Node) (ep : Nat) : Option LetEntry :=
  (nd.pat.loaded.filter (fun k => nd.pat.slotCtag k == nd.pat.ctag)).findSome? (fun k => letEntryIn n nd.pat k ep)

/-- The bytes of a record as a ring holds them: header granule and padded payload (R179, R180). -/
def ringImage (hdr : U128) (data : List Byte) : List Byte :=
  leBytes 16 hdr.toNat ++ List.replicate 48 0 ++ data ++ List.replicate ((64 - data.length % 64) % 64) 0

/-- A record written into its channel's let-out ring (R248, R249), with the skip rule of R185. None: no room. -/
def letoutWrite (s : State) (n : NodeId) (ep : Nat) (le : LetEntry) (hdr : U128) (data : List Byte) : Option State :=
  let o := (s.node n).outEp ep
  let size := 4096 * le.units
  let sz := recBytes data.length
  let need := ringNeed size o.loW sz
  if size < o.loUsed + need then none
  else
    let skip := decide (size - o.loW < sz)
    let at' := if skip then 0 else o.loW
    let p := ((s.node n).part).getD 0
    let key := homeKey s p le.l (s.ln le.l).epoch
    let a := linBase le.l + 4096 * le.off
    let s := if skip then linWrite s key (a + o.loW) (ringImage (setFld (setFld (setFld hdr 87 68 0) 67 66 2) 63 29 0) []) else s
    let s := linWrite s key (a + at') (ringImage hdr data)
    some (s.updNode n (fun d => d.setOut ep { o with
      letout := true, loUsed := o.loUsed + need, loW := ringNext size o.loW sz, letouts := satAdd o.letouts 1,
      loQ := o.loQ ++ [⟨hdr, at', need, (s.ln le.l).epoch⟩] }))

/-- A tap's bytes for a record (R330): KIND, TOKEN, TOKVAL, LENGTH as 8 bytes, then the payload. -/
def tapBytes (r : OutRec) : List Byte :=
  leBytes 1 r.kind ++ leBytes 1 r.token ++ leBytes 2 r.tokval ++ leBytes 4 r.data.length ++ r.data

/-- One record offered to an output endpoint: sent, or spilled on a let-out channel, or none when it must wait (R184, R185, R191, R193,
R197, R248). -/
def trySend (s : State) (n : NodeId) (ep : Nat) (r : OutRec) : Option State :=
  let nd := s.node n
  let o := nd.outEp ep
  let hdr := mkHdr o.seq.toNat ep (nx n) (ny n) nd.pat.ctag r
  let counted (s : State) : State := s.updNode n (fun d => d.updOut ep (fun o => { o with
    seq := o.seq + 1, msgs := satAdd o.msgs 1, bytes := satAdd o.bytes r.data.length,
    tokens := if r.kind = 1 then satAdd o.tokens 1 else o.tokens,
    tap := if d.pat.taps.contains ep then o.tap ++ tapBytes r else o.tap }))
  if o.broken then none
  else if !o.letout && creditFor o r then some (counted (putRecord s n ep hdr r.data (isNotified r)))
  else if outMode o.desc = 1 then
    match letEntry n nd ep with
    | some le => (letoutWrite s n ep le hdr r.data).map counted
    | none => none
  else none

/-- As credit returns, let-out records are read back in order and sent with LETOUT = 1 (R248, R276). -/
def letoutPump (n : NodeId) (ep : Nat) : Nat → State → State
  | 0, s => s
  | fuel + 1, s =>
    let nd := s.node n
    let o := nd.outEp ep
    match o.loQ, letEntry n nd ep with
    | q :: rest, some le =>
      let len := rhLen q.hdr
      if ringNeed (4096 * outSize o.desc) o.ptr (recBytes len) ≤ o.credit then
        let a := linBase le.l + 4096 * le.off + q.at' + 64
        let data := linRead s (homeKey s (nd.part.getD 0) le.l q.epoch) a len
        let hdr := setFld q.hdr 30 30 1
        let hdr := if linPoisoned s a len then setFld hdr 29 29 1 else hdr
        let s := s.updNode n (fun d => d.setOut ep { o with loQ := rest, loUsed := o.loUsed - q.take, letout := !rest.isEmpty,
                                                            loW := if rest.isEmpty then 0 else o.loW })
        letoutPump n ep fuel (putRecord s n ep hdr data false)
      else s
    | _, _ => s

/-- An end marked broken: PEER_LOST, and any operation blocked on it stops (R198). -/
def breakIn (s : State) (n : NodeId) (ep : Nat) : State :=
  s.updNode n (fun d => raiseAt n (d.updIn ep (fun e => { e with broken := true, blocked := false })) 0x18 ep 0)
def breakOut (s : State) (n : NodeId) (ep : Nat) : State :=
  s.updNode n (fun d => raiseAt n (d.updOut ep (fun e => { e with broken := true, blocked := false })) 0x18 ep 0)

/-- Where an input endpoint's credits go: its sending node, or the Host hem (R188, R371, R541, R547). -/
def sendCredit (s : State) (n : NodeId) (ep amount : Nat) : State :=
  let e := (s.node n).inEp ep
  match e.creditWay with
  | none => s
  | some (en, wx, wy) =>
    let d := e.desc
    let dst := if fld d 127 120 = 0xFF then hostDest s n s.stw.hostB else ⟨nodeAt (fld d 127 120) (fld d 119 112), 0⟩
    inject s n (mkRoute n dst ⟨en, wx, wy⟩ tyCredit 0 (((s.node n).part).getD 16) 0)
      (mkWord 128 [(120, fld d 111 104), (112, ep), (92, amount)]) []

/-- Unreturned ring credit sent at once when it reaches the threshold of R188; window entry credits return as they are released (R191). -/
def creditIfDue (s : State) (n : NodeId) (ep : Nat) (force : Bool) : State :=
  let e := (s.node n).inEp ep
  if e.credit = 0 ∨ e.creditWay.isNone then s
  else if inMode e.desc = 1 then
    if force || decide (min (inBytes e.desc / 4) 16384 ≤ e.credit) then
      (sendCredit s n ep (e.credit / 64)).updNode n (fun d => d.updIn ep (fun e => { e with credit := 0 }))
    else s
  else (sendCredit s n ep e.credit).updNode n (fun d => d.updIn ep (fun e => { e with credit := 0 }))

/-- A record that RECV can return. -/
def ChanRec.shown (r : ChanRec) : Bool := rhKind r.hdr != 2

/-- Leading skip markers at the read offset are released at once with their tails (R187). -/
def dropSkips (e : Ep) : Nat → Ep
  | 0 => e
  | fuel + 1 =>
    match e.recs with
    | r :: t => if e.returned = 0 && !r.shown then dropSkips { e with recs := t, credit := e.credit + r.size, ptr := 0 } fuel else e
    | [] => e

/-- The first k records released: ring bytes become unreturned credit, window slots lose FILLED (R170, R187, R188, R192, R225). -/
def releaseRecs (nd : Node) (ep k : Nat) : Node :=
  let nd := { nd with events := nd.events + k }
  let e := nd.inEp ep
  let out := e.recs.take k
  let rest := e.recs.drop k
  if inMode e.desc = 1 then
    let bytes := out.foldl (fun a r => a + r.size) 0
    let ptr := out.foldl (fun a r => if !r.shown then 0 else if a + r.size = inBytes e.desc then 0 else a + r.size) e.ptr
    nd.setIn ep (dropSkips { e with recs := rest, returned := e.returned - k, credit := e.credit + bytes, ptr := ptr } (rest.length + 1))
  else
    { nd.setIn ep { e with recs := rest, returned := e.returned - k, credit := e.credit + out.length } with
      pad := nd.pad.unfill (out.flatMap (·.slots)) }

/-- A consumption event after a QUIET: the warden sends ACTIVE and restarts its count (R439, R440). -/
def consumed (s : State) (n : NodeId) : State :=
  match (s.node n).part with
  | none => s
  | some p => s.updPart p (fun x => { x with tr := { x.tr with quiet := setDel x.tr.quiet (panelOf n) } })

/-- Every record returned on an endpoint is released (R195 item 1). -/
def releaseReturned (s : State) (n : NodeId) (ep : Nat) : State :=
  let e := (s.node n).inEp ep
  if e.returned = 0 then s
  else creditIfDue (consumed (s.updNode n (fun d => releaseRecs d ep (((s.node n).inEp ep).returned))) n) n ep false

/-- Whether a SEAM holds an endpoint sealed (R242). -/
def Pat.isSealed (p : Pat) (ep : Nat) : Bool := p.sealed.getLsbD ep

/-- The next record a RECV may return, as its index among the unreleased ones: the first past those returned that is no skip marker; a SEAM
stops it while the endpoint is sealed (R186, R195, R242). -/
def nextVisible (nd : Node) (ep : Nat) : Option Nat :=
  let e := nd.inEp ep
  match (e.recs.drop e.returned).findIdx? (·.shown) with
  | none => none
  | some i =>
    match e.recs[e.returned + i]? with
    | some r => if rhKind r.hdr = 1 ∧ rhToken r.hdr = 4 then none else some (e.returned + i)
    | none => none

/-- RECV's descriptor word (R195). -/
def recvWord (h : U128) : U64 :=
  mkWord 64 [(48, rhSeq h), (32, rhTokval h), (28, rhToken h), (26, rhKind h), (24, rhCtag h), (23, b2n (rhPoison h)), (0, rhLen h)]

/-- The input endpoint that a record's source feeds (R175, R176): matched by the sending node and endpoint; 0xFF is the host (R547). -/
def inEpOf (nd : Node) (x y e : Nat) : Option Nat :=
  (List.find? (fun (i : Nat × Ep) => inMode i.2.desc != 0 && fld i.2.desc 127 120 == x && fld i.2.desc 119 112 == y && fld i.2.desc 111 104 == e) nd.ins).map (·.1)

/-- Owner bank of a scratchpad address, and its tag (R163, R208). -/
def bankOf (a : Nat) : Nat := a / 0x100000
def Pad.owner (p : Pad) (b : Nat) : U64 := Table.get 0 p.owners b
/-- The bank belongs to a partition (R166). -/
def Pad.ownedBy (p : Pad) (a part : Nat) : Bool := bit (p.owner (bankOf a)) 16 && fld (p.owner (bankOf a)) 9 6 == part

/-- Block records of a window deposit into W-pad or A-pad: (unit, flags, scales, elements) of each, if well formed (R677). -/
def blockRecords (n : NodeId) (a : Nat) (data : List Byte) : Option (Nat × List (Nat × Byte × List Byte × List Byte)) :=
  match data.getLast? with
  | none => none
  | some f =>
    let code := f.toNat / 16
    let eb := match fmtFootprintBytes code with | some b => b | none => 0
    let rs := eb + 33
    let k := data.length / rs
    let pad := if a < 0x1800000 then 0 else 1
    let u0 := (a - mPadBase pad) / 512
    if eb = 0 ∨ a % 512 ≠ 0 ∨ data.length % rs ≠ 0 ∨ !(kindOf n == .m) then none
    else
      let recs := (chunks rs k data).zipIdx.map (fun x =>
        (u0 + x.2 * footprint code, (x.1.getLast?).getD 0, (x.1.drop eb).take 32, x.1.take eb))
      if recs.all (fun r => r.2.1.toNat / 16 == code) then some (pad, recs) else none
where
  /-- Element bytes of a block record by format code (R677). -/
  fmtFootprintBytes (code : Nat) : Option Nat := if fmtCodeOk code then some (blockBytes code) else none

/-- A discarded deposit refused as foreign: OWNER NACK and OWNER_REFUSED (R166, R673). -/
def refuseOwner (s : State) (n : NodeId) (p : Packet) : State :=
  let s := s.updNode n (fun d => { d with pad := { d.pad with ownerRefused := satAdd d.pad.ownerRefused 1 } })
  sendNack s n p 3

/-- A window deposit (R169, R171, R172, R190, R191, R677): the node after it, or the fault it raises. `slots` are those it touches. -/
def windowDeposit (n : NodeId) (nd : Node) (ep : Nat) (h : U128) (data : List Byte) : Node :=
  let e := nd.inEp ep
  let a := inStart n e.desc + 64 * rhWoff h
  let fin := inStart n e.desc + inBytes e.desc
  let mBlock := kindOf n == .m && decide (inPad e.desc ≤ 1)
  let recs := if mBlock then blockRecords n a data else none
  let slots := match recs with
    | some (pad, rs) => (rs.flatMap (fun r => blockSlots pad (footprint (r.2.1.toNat / 16)) r.1)).foldl setIns []
    | none => slotsOf a data.length
  let top := match recs with
    | some (pad, rs) => (rs.getLast?).elim a (fun r => unitAddr pad r.1 + 512 * footprint (r.2.1.toNat / 16))
    | none => a + data.length
  if fin < top ∨ (mBlock ∧ recs.isNone) then raiseAt n nd 0x05 ep 0
  else if kindOf n = .m ∧ rhNotify h then raiseAt n nd 0x0B ep 0
  else
    let bad := slots.find? (fun k => nd.pad.tagged.getLsbD k && nd.pad.filled.getLsbD k)
    match (if nd.pad.checked then bad else none) with
    | some k =>
      raiseAt n { nd with pad := { nd.pad with fillFaultLoc := if bit nd.pad.fillFaultLoc 63 then nd.pad.fillFaultLoc else fillLocWord n k true } } 0x0A ep 0
    | none =>
      let p := if bad.isSome then { nd.pad with obdUnchecked := satAdd nd.pad.obdUnchecked 1 } else nd.pad
      let p := match recs with
        | some (pad, rs) => rs.foldl (fun p r => writeBlock p pad r.1 (r.2.1.toNat / 16) r.2.1 r.2.2.1 r.2.2.2) p
        | none => p.write a data
      let p := if rhFill h then p.fill slots else p
      let nd := { nd with pad := p }
      if rhFill h && rhNotify h then nd.setIn ep { e with recs := e.recs ++ [⟨storedHdr h, a, 0, slots⟩] } else nd

/-- A ring deposit at the receiver's own write offset (R184 to R187). -/
def ringDeposit (n : NodeId) (nd : Node) (ep : Nat) (h : U128) (data : List Byte) : Node :=
  let e := nd.inEp ep
  let base := inStart n e.desc
  let size := inBytes e.desc
  let st := storedHdr h
  if rhKind h = 2 then
    let nd := { nd with pad := nd.pad.write (base + e.wptr) (ringImage st []) }
    nd.setIn ep (dropSkips { e with recs := e.recs ++ [⟨st, base + e.wptr, size - e.wptr, []⟩], wptr := 0, skips := satAdd e.skips 1 } (e.recs.length + 1))
  else
    let sz := recBytes data.length
    let nd := { nd with pad := nd.pad.write (base + e.wptr) (ringImage st data) }
    nd.setIn ep { e with recs := e.recs ++ [⟨st, base + e.wptr + 64, sz, []⟩],
                         wptr := if e.wptr + sz = size then 0 else e.wptr + sz }

/-- A RECORD packet consumed at a node (R166, R175, R181, R182, R186, R190, R191, R197, R225, R242, R371, R673). -/
def recordAtNode (s : State) (n : NodeId) (p : Packet) : State :=
  let nd := s.node n
  let h := p.pay
  match inEpOf nd (rhX h) (rhY h) (rhEp h) with
  | none => refuseOwner s n p
  | some ep =>
    let e := nd.inEp ep
    let ring := inMode e.desc == 1
    let a := if ring then inStart n e.desc + e.wptr else inStart n e.desc + 64 * rhWoff h
    if !nd.pad.ownedBy a (rtOwner p.route) then refuseOwner s n p
    else if e.broken then s
    else if rhSeq h ≠ e.seq.toNat then breakIn s n ep
    else
      let data := p.data.take (rhLen h)
      let nd := if ring then ringDeposit n nd ep h data
        else if rhKind h = 1 then nd.setIn ep { e with recs := e.recs ++ [⟨storedHdr h, 0, 0, []⟩] }
        else windowDeposit n nd ep h data
      let way := (rtWayEn p.route, nx (rtWay p.route), ny (rtWay p.route))
      let nd := nd.updIn ep (fun e => { e with
        creditWay := match e.creditWay with | some w => some w | none => some way
        seq := if rhKind h = 2 then e.seq else e.seq + 1
        msgs := if rhKind h = 2 then e.msgs else satAdd e.msgs 1
        bytes := satAdd e.bytes data.length
        tokens := if rhKind h = 1 then satAdd e.tokens 1 else e.tokens
        letouts := if rhLetout h then satAdd e.letouts 1 else e.letouts })
      let nd := { nd with pat := { nd.pat with
        veto := nd.pat.veto || rhPoison h
        sealed := if rhKind h = 1 ∧ rhToken h = 4 then setBits nd.pat.sealed ep 1 true else nd.pat.sealed } }
      creditIfDue (s.setNode n nd) n ep false

/-- Whether a node holds a loaded pattern that enables an output endpoint (R673). -/
def outEnabled (nd : Node) (ep : Nat) : Bool := outMode (nd.outEp ep).desc != 0

/-- Cores blocked on an output endpoint's credit are marked (R209 BLOCKED). -/
def setBlockedOut (s : State) (n : NodeId) (ep : Nat) (b : Bool) : State := s.updNode n (fun d => d.updOut ep (fun e => { e with blocked := b }))
def setBlockedIn (s : State) (n : NodeId) (ep : Nat) (b : Bool) : State := s.updNode n (fun d => d.updIn ep (fun e => { e with blocked := b }))

end Sys2Proof.Machine
end

