-- ==== Sys2Proof/Config.lean ====
section
/-! DEFINITION. What the spec leaves open: free values and outside computations, as constants without a body. -/

namespace Sys2Proof

/-- The k-th free value: a number nothing constrains (log 1). The step that uses one advances State.free. -/
opaque Config.free : Nat → Nat
/-- Bytes of the image's header and placements sections, as R211 digests them; the spec does not give their serialisation (log 4). -/
opaque Config.imageHead : Image → List Byte
opaque Config.imagePlacements : Image → List Byte
/-- The image that a byte string serialises, if any (R211, log 4). -/
opaque Config.imageOf : List Byte → Option Image
/-- What public-key algorithms answer (R570, R583, R587, R593, R614): signature checks and key agreement are outside the model (log 5). -/
opaque Config.signatureOk : List Byte → Bool
opaque Config.sign : List Byte → List Byte
opaque Config.keyAgree : List Byte → List Byte
/-- SERIAL and the SEAL_BREAKS value of a re-seal record, whose layout the spec does not give (R598, log 5). -/
opaque Config.resealSerial : List Byte → Nat
opaque Config.resealBreaks : List Byte → Nat
/-- The module's own secrets and identity (R466, R567): device secret, serial number, certificate chain (log 6). -/
opaque Config.deviceSecret : List Byte
opaque Config.serial : Nat
opaque Config.chain : List Byte
/-- SHA-384 of the C node ROM, and the PROD_LOCK fuse (R566, R585). -/
opaque Config.romDigest : List Byte
opaque Config.prodLock : Bool
/-- Bits of each hem's MAC address that the identity fuses give (R497). -/
opaque Config.mac : Nat → Nat
/-- Tray slot number that each host connector's straps present (R497, R660, R662). -/
opaque Config.slot : Nat → Nat

end Sys2Proof
end

