-- ==== Sys2Proof/Machine/TwinOps.lean ====
section
/-! DEFINITION. Frames to the twin: streams, pinning, sealing and sending (R602 to R607, R619, R622). -/

namespace Sys2Proof.Machine
open Sys2Proof

/-- Frame types (R605). -/
abbrev fHello : Nat := 0x01
abbrev fProof : Nat := 0x02
abbrev fHeartbeat : Nat := 0x03
abbrev fAck : Nat := 0x04
abbrev fAppend : Nat := 0x10
abbrev fInput : Nat := 0x11
abbrev fEnd : Nat := 0x12
abbrev fDurable : Nat := 0x13
abbrev fCommit : Nat := 0x14
abbrev fFetch : Nat := 0x15
abbrev fPage : Nat := 0x16
abbrev fDigest : Nat := 0x17
abbrev fExchange : Nat := 0x18
abbrev fMgmt : Nat := 0x19

/-- A Spakan port and a stream of the module. -/
def State.spPort (s : State) (k : Nat) : SpPort := Table.get {} s.twin.ports k
def State.updSp (s : State) (k : Nat) (f : SpPort → SpPort) : State :=
  { s with twin := { s.twin with ports := Table.put s.twin.ports k (f (s.spPort k)) } }
def State.stream (s : State) (n : Nat) : Stream := Table.get {} s.twin.streams n
def State.updStream (s : State) (n : Nat) (f : Stream → Stream) : State :=
  { s with twin := { s.twin with streams := Table.put s.twin.streams n (f (s.stream n)) } }

/-- TWIN_STATE values (R616). -/
abbrev twUnpaired : Nat := 0
abbrev twPairing : Nat := 1
abbrev twSyncing : Nat := 2
abbrev twPaired : Nat := 3
abbrev twLost : Nat := 4
abbrev twDetaching : Nat := 5

/-- Twin ports that are UP, ascending (R604, R619). -/
def twinUp (s : State) : List Nat := twinPorts.filter (fun k => (s.spPort k).state == 2)
/-- The twin port a stream is pinned to (R619). -/
def pinned (s : State) (stream : Nat) : Option Nat :=
  let ups := twinUp s
  if ups.isEmpty then none else ups[stream % ups.length]?

/-- A frame put on a port's link VC; flits of R605's packet count (R602, R628). -/
def putFrame (s : State) (port vc : Nat) (f : Frame) : State :=
  s.updSp port (fun x => { x with sent := x.sent ++ [(vc, f)],
                                  flits := Table.put x.flits vc (satAdd (Table.get 0 x.flits vc) (1 + flitsOf f.data.length)) })

/-- Header bytes 0–39 of a frame (R605). -/
def frameHead (f : Frame) : List Byte :=
  leBytes 2 f.dst.toNat ++ leBytes 2 f.src.toNat ++ [f.ty, f.hops] ++ leBytes 2 f.stream.toNat ++ leBytes 8 f.eseq.toNat ++
  leBytes 4 f.step.toNat ++ leBytes 4 f.len.toNat ++ leBytes 16 f.arg.toNat

/-- The mirror key of a protected partition for frames that a module of an address sends (R622). -/
def mirrorKey (s : State) (p : Nat) (addr : U16) : List Byte :=
  hkdf384 [] (s.part p).keys.master ([0x4D, 0x49, 0x52, 0x52, 0x4F, 0x52] ++ s.twin.linkId ++ leBytes 2 addr.toNat) 32
/-- The nonce of a sealed frame (R622). -/
def frameNonce (f : Frame) : List Byte := leBytes 8 f.eseq.toNat ++ leBytes 2 f.stream.toNat ++ [0, 0]
/-- A frame with its payload sealed for a protected partition (R622). -/
def sealFrame (s : State) (p : Nat) (f : Frame) : Frame :=
  if (s.cfg p).prot then
    let r := gcmSeal (mirrorKey s p f.src) (frameNonce f) (frameHead f) f.data
    { f with data := r.1, tag := BitVec.ofNat 128 (leNat r.2) }
  else f
/-- The payload of a frame of a partition, if its tag fits (R622). -/
def openFrame (s : State) (p : Nat) (f : Frame) : Option (List Byte) :=
  if (s.cfg p).prot then gcmOpen (mirrorKey s p f.src) (frameNonce f) (frameHead f) f.data (leBytes 16 f.tag.toNat) else some f.data

/-- The twin's Spakan address. -/
def peerAddr (s : State) : U16 := match s.twin.peer with | some h => h.addr | none => 0

/-- A frame of this module to its twin (R605, R606); HOPS is open (log 1). While the address is 0 no frame is sent. -/
def newFrame (s : State) (ty stream eseq step : Nat) (arg : U128) (data : List Byte) : State × Frame :=
  let h := s.takeFree
  (h.2, { dst := peerAddr s, src := s.twin.addr, ty := BitVec.ofNat 8 ty, hops := BitVec.ofNat 8 (Config.free h.1), stream := BitVec.ofNat 16 stream,
          eseq := BitVec.ofNat 64 eseq, step := BitVec.ofNat 32 step, len := BitVec.ofNat 32 data.length, arg := arg, tag := 0, data := data })

/-- A frame that belongs to a partition's stream, numbered, kept until it is acknowledged and put on a port (R607, R622, R624). -/
def sendBy (port : Option Nat) (s : State) (p ty stream step : Nat) (arg : U128) (data : List Byte) : State :=
  if s.twin.addr = 0 then s
  else
    let r := newFrame s ty stream (s.stream stream).next step arg data
    let s := r.1
    let f := sealFrame s p r.2
    let s := s.updStream stream (fun x => { x with
      next := x.next + 1, unacked := x.unacked ++ [f]
      stepFrames := if ty = fAppend ∨ ty = fInput then Table.put x.stepFrames step (Table.get 0 x.stepFrames step + 1) else x.stepFrames })
    match port with
    | some k => putFrame s k 1 f
    | none => s
/-- A frame on the port its stream is pinned to (R619). -/
def sendOn (s : State) (p ty stream step : Nat) (arg : U128) (data : List Byte) : State :=
  sendBy (pinned s stream) s p ty stream step arg data

/-- A frame outside the numbered streams (HELLO, PROOF, HEARTBEAT, ACK) on a port; its ESEQ is open (log 1). -/
def sendPlain (s : State) (port ty stream : Nat) (arg : U128) (data : List Byte) : State :=
  if s.twin.addr = 0 then s
  else
    let e := s.takeFree
    let r := newFrame e.2 ty stream (Config.free e.1) 0xFFFFFFFF arg data
    putFrame r.1 port 1 r.2

/-- Streams (R619, R624). -/
def lnStream (p l : Nat) : Nat := 256 * p + l
def hemStream (p : Nat) : Nat := 256 * p + 255
def exchangeStream (p : Nat) : Nat := 256 * p + 254

/-- The i-th EXCHANGE frame of a step, n bytes of the accumulated gradient, which are free values (log 39), on the twin ports in turn (R624). -/
def exchangeFrame (s : State) (p t i n : Nat) : State :=
  let f := s.takeFree
  let ups := twinUp s
  sendBy ups[i % max 1 ups.length]? f.2 p fExchange (exchangeStream p) t (mkWord 128 [(0, 8192 * i)]) (leBytes n (Config.free f.1))
/-- The accumulated gradient of an exchange step goes to the twin in full (R349, R350, R624); its length is a free value (log 39). -/
def sendExchange (s : State) (p t : Nat) : State :=
  let a := s.takeFree
  let n := Config.free a.1
  let s := (List.range (n / 8192)).foldl (fun s i => exchangeFrame s p t i 8192) a.2
  let s := exchangeFrame s p t (n / 8192) (n % 8192)
  sendOn s p fEnd (exchangeStream p) t (mkWord 128 [(0, n / 8192 + 1)]) []

/-- A suspect replay is under way (R450). -/
def suspectRuns (x : Partition) : Bool := match x.tr.hang with | some h => h.suspect.isSome | none => false

/-- A partition whose commits are mirrored now: a primary with its twin paired or syncing, no suspect replay under way (R450, R617, R625). -/
def mirrored (s : State) (p : Nat) : Bool := (s.cfg p).mirror && (s.twin.state == twPaired || s.twin.state == twSyncing) && !suspectRuns (s.part p)

/-- ARG of APPEND (R605). -/
def appendArg (session : U32) (plane first tokens : Nat) : U128 :=
  mkWord 128 [(0, session.toNat), (32, plane), (64, first), (96, tokens)]
/-- ARG of FETCH and PAGE (R605). -/
def pageArg (session : U32) (page : Nat) : U128 := mkWord 128 [(0, session.toNat), (32, page)]

/-- END of a stream's step, which counts its frames (R605, R619, R623). -/
def sendEnd (s : State) (p stream step : Nat) : State :=
  if !mirrored s p || s.twin.addr == 0 then s
  else
    let k := Table.get 0 (s.stream stream).stepFrames step
    let s := sendOn s p fEnd stream step (mkWord 128 [(0, k)]) []
    s.updStream stream (fun x => { x with stepFrames := Table.del x.stepFrames step, ends := x.ends ++ [(step, s.clock)] })

end Sys2Proof.Machine
end

