-- ==== Sys2Proof/Machine/Bobbin.lean ====
section
/-! DEFINITION. Bobbins: page lists, frames and Bolt slots, the codec, promotion, demotion, eviction and narrowing (R290 to R294, R303 to
R311). -/

namespace Sys2Proof.Machine
open Sys2Proof

/-- Page-list entry fields (R293). -/
def pleValid (e : U128) : Bool := bit e 127
def pleLin (e : U128) : Bool := bit e 126
def pleBolt (e : U128) : Bool := bit e 125
def pleDirty (e : U128) : Bool := bit e 124
def pleNarrowed (e : U128) : Bool := bit e 123
def pleCodec (e : U128) : Nat := fld e 122 121
def pleClen (e : U128) : Nat := fld e 120 116
def pleFrame (e : U128) : Nat := fld e 115 99
def pleBslot (e : U128) : Nat := fld e 98 68
def pleEpoch (e : U128) : Nat := fld e 67 52

def LNode.bobbin (x : LNode) (e : Nat) : Bobbin := Table.get {} x.bobbins e
def LNode.updBobbin (x : LNode) (e : Nat) (f : Bobbin → Bobbin) : LNode := { x with bobbins := Table.put x.bobbins e (f (x.bobbin e)) }
def State.bobbin (s : State) (l e : Nat) : Bobbin := (s.ln l).bobbin e
def State.updBobbin (s : State) (l e : Nat) (f : Bobbin → Bobbin) : State := s.updLn l (fun x => x.updBobbin e f)

/-- Bytes of a token of one plane (R293). -/
def Bobbin.tokenBytes (b : Bobbin) : Nat := 65536 / 2 ^ b.tpp
/-- Page-list index of a token of a plane (R293). -/
def Bobbin.pageOf (b : Bobbin) (t plane : Nat) : Nat := (t / 2 ^ b.tpp) * b.planes + plane
/-- FLAGS of a bobbin (R292). -/
def Bobbin.mirrored (b : Bobbin) : Bool := bit b.flags 0
def Bobbin.codec (b : Bobbin) : Nat := fld b.flags 3 2
def Bobbin.nw (b : Bobbin) : Bool := bit b.flags 4
def Bobbin.bf16 (b : Bobbin) : Bool := bit b.flags 5
/-- Tokens that a READ may name (R301). -/
def Bobbin.readEnd (b : Bobbin) : Nat := max b.length (max b.end0 b.end1)
/-- Bolt slot size in 4 KiB units (R294). -/
def Bobbin.slotUnits (b : Bobbin) : Nat :=
  if b.codec = 2 then (if b.nw then (if b.bf16 then 5 else 9) else (if b.bf16 then 7 else 13)) else 16

/-- A page-list entry, which lies in plaintext in its home region (R293). -/
def pleAddr (l : Nat) (b : Bobbin) (i : Nat) : Nat := linBase l + 4096 * b.list + 16 * i
def ple (s : State) (l : Nat) (b : Bobbin) (i : Nat) : U128 := BitVec.ofNat 128 (s.lining.num (pleAddr l b i) 16)
def setPle (s : State) (l : Nat) (b : Bobbin) (i : Nat) (e : U128) : State :=
  { s with lining := s.lining.write (pleAddr l b i) (leBytes 16 e.toNat) }
/-- A page-list entry from its fields. -/
def mkPle (lin bolt dirty narrowed : Bool) (codec clen frame bslot epoch : Nat) : U128 :=
  mkWord 128 [(127, 1), (126, b2n lin), (125, b2n bolt), (124, b2n dirty), (123, b2n narrowed), (121, codec), (116, clen), (99, frame), (68, bslot),
    (52, epoch)]

/-- Where a frame lies in the Lining. -/
def frameAddr (l frame : Nat) : Nat := linBase l + 65536 * frame

/-- The partition whose clusters an L node belongs to (R290, R528). -/
def lnPart (s : State) (l : Nat) : Nat := ((List.range 16).find? (fun p => (s.cfg p).clusters.getLsbD (clusterOf (lNode l)))).getD 0
/-- The current epoch an L node writes under; 0 for an unprotected partition. -/
def lnEpoch (s : State) (l : Nat) : Nat := if (s.cfg (lnPart s l)).prot then (s.ln l).epoch else 0

/-- The 64 KiB of a frame in plaintext; a page of an epoch that neither key slot holds is an uncorrectable error (R288). -/
def frameRead (s : State) (l frame epoch off n : Nat) : MemRead :=
  let p := lnPart s l
  if (s.cfg p).prot then
    match (s.ln l).key epoch with
    | some k => ⟨s, linRead s (some k) (frameAddr l frame + off) n, linPoisoned s (frameAddr l frame + off) n⟩
    | none => ⟨linStrike s (frameAddr l frame), List.replicate n 0, true⟩
  else ⟨s, linRead s none (frameAddr l frame + off) n, linPoisoned s (frameAddr l frame + off) n⟩
/-- Bytes written into a frame under an epoch. -/
def frameWrite (s : State) (l frame epoch off : Nat) (bs : List Byte) : State :=
  linWrite s (homeKey s (lnPart s l) l epoch) (frameAddr l frame + off) bs

/-- The distinct high nibbles of bytes, ascending. -/
def highNibbles (u : List Byte) : List Nat := u.foldl (fun l b => setIns l (b.toNat / 16)) []
/-- One 128-byte unit of the tight mode: its code and payload (R308). -/
def tightUnit (u : List Byte) : Nat × List Byte :=
  let ns := highNibbles u
  let dict (k : Nat) : List Nat := (List.range k).map (fun i => ns.getD i (ns.getLast?.getD 0))
  let index := u.map (fun b => ns.idxOf (b.toNat / 16))
  let low := packCodes 4 64 (u.map (fun b => b.toNat % 16))
  if u.all (· == 0) then (0, [])
  else if ns.length ≤ 2 then (1, packCodes 4 1 (dict 2) ++ packCodes 1 16 index ++ low)
  else if ns.length ≤ 4 then (2, packCodes 4 2 (dict 4) ++ packCodes 2 32 index ++ low)
  else (3, u)
/-- The tight encoding of a page (R308). -/
def tightEncode (d : List Byte) : List Byte :=
  let us := (chunks 128 512 d).map tightUnit
  packCodes 2 128 (us.map (·.1)) ++ us.flatMap (·.2)
/-- Bytes of a unit's payload by code. -/
def tightSize (c : Nat) : Nat := match c with | 0 => 0 | 1 => 81 | 2 => 98 | _ => 128
/-- One unit decoded. -/
def tightUnitBytes (c : Nat) (b : List Byte) : List Byte :=
  let go (k dictBytes : Nat) : List Byte :=
    let dict := unpackCodes 4 (2 * dictBytes) (b.take dictBytes)
    let idx := unpackCodes k 128 ((b.drop dictBytes).take (16 * k))
    let low := unpackCodes 4 128 (b.drop (dictBytes + 16 * k))
    (idx.zip low).map (fun x => BitVec.ofNat 8 (16 * dict.getD x.1 0 + x.2))
  match c with
  | 0 => List.replicate 128 0
  | 1 => go 1 1
  | 2 => go 2 2
  | _ => b
/-- A page decoded from the tight mode. -/
def tightDecode (b : List Byte) : List Byte :=
  ((unpackCodes 2 512 (b.take 128)).foldl (fun (st : List Byte × List Byte) c =>
    (st.1 ++ tightUnitBytes c (st.2.take (tightSize c)), st.2.drop (tightSize c))) ([], b.drop 128)).1

/-- The narrow formats of a bobbin (R311). -/
def Bobbin.elemFmt (b : Bobbin) : Fmt := if b.bf16 then .bf16 else .e4m3
def Bobbin.narrowFmt (b : Bobbin) : Fmt := if b.nw then .e2m1 else .e3m2
/-- The blocks of a page: shared scale and codes of each 32 elements (R54, R311). -/
def narrowBlocks (b : Bobbin) (d : List Byte) : List (Nat × List Nat) :=
  let n := if b.bf16 then 32768 else 65536
  (chunks 32 (n / 32) ((unpackCodes b.elemFmt.width n d).map (decodeNum b.elemFmt))).map (mxBlock b.narrowFmt (fun _ => .rne))
/-- The narrow Bolt copy: packed elements, then a scale byte per block (R311). -/
def narrowEncode (b : Bobbin) (d : List Byte) : List Byte :=
  let bl := narrowBlocks b d
  packCodes b.narrowFmt.width (bl.length * 4 * b.narrowFmt.width) (bl.flatMap (·.2)) ++ bl.map (fun x => BitVec.ofNat 8 x.1)
/-- Narrowed values as the Lining holds them (R311). -/
def narrowValues (b : Bobbin) (bl : List (Nat × List Nat)) : List Byte :=
  let codes := bl.flatMap (fun x => x.2.map (fun c =>
    if x.1 = 0xFF then (if b.bf16 then 0x7FC0 else 0x7F) else (encodeNum b.elemFmt false .rne (decodeScaled b.narrowFmt x.1 c)).code))
  packCodes b.elemFmt.width 65536 codes
def narrowed (b : Bobbin) (d : List Byte) : List Byte := narrowValues b (narrowBlocks b d)
/-- A narrow Bolt copy expanded (R311). -/
def narrowDecode (b : Bobbin) (d : List Byte) : List Byte :=
  let n := if b.bf16 then 1024 else 2048
  let w := b.narrowFmt.width
  narrowValues b (((d.drop (n * 4 * w)).take n |>.map BitVec.toNat).zip (chunks 32 n (unpackCodes w (32 * n) (d.take (n * 4 * w)))))

/-- A page encoded for the Bolt: CODEC and bytes, whole 4 KiB units (R307, R309). -/
def encodePage (b : Bobbin) (narrowedPage : Bool) (d : List Byte) : Nat × List Byte :=
  let whole (x : List Byte) := x ++ List.replicate ((4096 - x.length % 4096) % 4096) 0
  if b.codec = 0 then (0, d)
  else if b.codec = 2 ∧ narrowedPage then (2, whole (narrowEncode b d))
  else
    let t := tightEncode d
    if 15 < (t.length + 4095) / 4096 then (0, d) else (1, whole t)
/-- A Bolt copy decoded. -/
def decodePage (b : Bobbin) (codec : Nat) (d : List Byte) : List Byte :=
  match codec with
  | 1 => tightDecode d
  | 2 => narrowDecode b d
  | _ => d.take 65536

/-- Units of a Bolt pool that are free for n units in a row: the lowest such place (R294). -/
def boltFit (x : LNode) (n : Nat) : Option Nat :=
  let ends := x.boltFirst :: x.boltUsed.map (fun u => u.1 + u.2)
  ((ends.filter (fun a => decide (x.boltFirst ≤ a) && decide (a + n ≤ x.boltFirst + x.boltCount) &&
      x.boltUsed.all (fun u => decide (a + n ≤ u.1) || decide (u.1 + u.2 ≤ a)))).foldl
    (fun b a => match b with | none => some a | some c => some (min a c)) none)

/-- A 4 KiB unit of the partition's Bolt written or read by an L node (R283, R286). -/
def boltUnitWrite (s : State) (l p unit : Nat) (bs : List Byte) : State :=
  match xlate s p (0x20000000000 + 4096 * unit) true with
  | .bolt o v false =>
    match boltPageWrite s l (s.cfg p).prot v o bs with
    | some s => s
    | none => versionWrap s p l
  | _ => partWrite s p (0x20000000000 + 4096 * unit) bs
def boltUnitRead (s : State) (l p unit : Nat) : State × List Byte × Bool :=
  match xlate s p (0x20000000000 + 4096 * unit) false with
  | .bolt o v false => boltPageRead s l (s.cfg p).prot v o
  | _ => let r := partRead s p (0x20000000000 + 4096 * unit) 4096; (r.s, r.data, r.poison)

/-- A page demoted at once (R307): none when its slot cannot be had or cannot hold it, or the page is poisoned, and nothing changes. -/
def demotePage (s : State) (l e i : Nat) (keepDirty : Bool) : Option State :=
  let b := s.bobbin l e
  let x := ple s l b i
  if !pleValid x || !pleLin x || !pleDirty x then some s
  else
    let r := frameRead s l (pleFrame x) (pleEpoch x) 0 65536
    if r.poison then none
    else
      let enc := encodePage b (pleNarrowed x) r.data
      let units := enc.2.length / 4096
      let slot := if pleBolt x || pleBslot x != 0 then some (pleBslot x) else boltFit (s.ln l) b.slotUnits
      match slot with
      | none => none
      | some u =>
        if b.slotUnits < units then none
        else
          let p := lnPart s l
          if !mapped s p (0x20000000000 + 4096 * u) (4096 * units) true then none
          else
          let s := (List.range units).foldl (fun s k => boltUnitWrite s l p (u + k) ((enc.2.drop (4096 * k)).take 4096)) r.s
          let s := setPle s l b i (mkPle true true keepDirty (pleNarrowed x) enc.1 units (pleFrame x) u (pleEpoch x))
          some (s.updLn l (fun y => { y.updBobbin e (fun b => if pleBolt x then b else { b with boltPages := b.boltPages + 1 }) with
            boltUsed := if pleBolt x || pleBslot x != 0 then y.boltUsed else y.boltUsed ++ [(u, b.slotUnits)]
            pfDemoted := satAdd y.pfDemoted 1 }))

/-- A page's frame given up: LIN clears and the frame is free (R306). -/
def dropFrame (s : State) (l e i : Nat) : State :=
  let b := s.bobbin l e
  let x := ple s l b i
  (setPle s l b i (setFld x 126 126 0)).updLn l (fun y =>
    { y.updBobbin e (fun b => { b with linPages := b.linPages - 1 }) with framesUsed := setDel y.framesUsed (pleFrame x) })

/-- The page that gives up its frame (R306): lowest LAST_STEP, then entry, then page-list index. -/
def victim (s : State) (l : Nat) : Option (Nat × Nat) :=
  let now := (s.node (lNode l)).pat.current.toNat
  let cands := (s.ln l).bobbins.flatMap (fun (eb : Nat × Bobbin) =>
    if eb.2.state ≠ 0 ∧ eb.2.lastStep + 1 < now then
      ((List.range eb.2.listCap).filter (fun i => let x := ple s l eb.2 i; pleValid x && pleLin x)).map (fun i => (eb.2.lastStep, eb.1, i))
    else [])
  let less (a b : Nat × Nat × Nat) : Bool := decide (a.1 < b.1) || (a.1 == b.1 && (decide (a.2.1 < b.2.1) || (a.2.1 == b.2.1 && decide (a.2.2 < b.2.2))))
  (cands.foldl (fun b c => match b with | none => some c | some d => if less c d then some c else b) (none : Option (Nat × Nat × Nat))).map (·.2)

/-- A frame from the pool, evicting if none is free (R294, R306). None: BOBBIN_SPACE. -/
def takeFrame (s : State) (l : Nat) : Option (State × Nat) :=
  let free (s : State) : Option Nat :=
    let x := s.ln l
    (rangeFrom x.frameFirst x.frameCount).find? (fun f => !x.framesUsed.contains f)
  let use (s : State) (f : Nat) : State × Nat := (s.updLn l (fun x => { x with framesUsed := setIns x.framesUsed f }), f)
  match free s with
  | some f => some (use s f)
  | none =>
    match victim s l with
    | none => none
    | some (e, i) =>
      match demotePage s l e i false with
      | none => none
      | some s =>
        let s := dropFrame s l e i
        (free s).map (use s)

/-- The bytes of a page's Bolt copy, decoded, and whether a line failed (R282, R304). -/
def readBoltCopy (s : State) (l : Nat) (b : Bobbin) (x : U128) : State × List Byte × Bool :=
  let p := lnPart s l
  let r := (List.range (pleClen x)).foldl (fun (r : State × List Byte × Bool) k =>
    let q := boltUnitRead r.1 l p (pleBslot x + k)
    (q.1, r.2.1 ++ q.2.1, r.2.2 || q.2.2)) (s, [], false)
  (r.1, decodePage b (pleCodec x) r.2.1, r.2.2)

/-- A page promoted (R304): read, verified, decoded, written to a frame under the current epoch. None: no frame. A failing line poisons the frame. -/
def promotePage (s : State) (l e i : Nat) : Option State :=
  let b := s.bobbin l e
  let x := ple s l b i
  match takeFrame s l with
  | none => none
  | some (s, f) =>
    let r := readBoltCopy s l b x
    let s := frameWrite r.1 l f (lnEpoch s l) 0 r.2.1
    let s := setPle s l b i (mkPle true true false (pleNarrowed x) (pleCodec x) (pleClen x) f (pleBslot x) (lnEpoch s l))
    let s := s.updLn l (fun y => { y.updBobbin e (fun b => { b with linPages := b.linPages + 1 }) with
      pfPromoted := satAdd y.pfPromoted 1
      poison := if r.2.2 then setIns y.poison f else y.poison })
    some s

/-- A frame's page brought under the current epoch before it is written (R288). -/
def freshEpoch (s : State) (l : Nat) (b : Bobbin) (i : Nat) : State :=
  let x := ple s l b i
  if pleEpoch x = lnEpoch s l then s
  else
    let r := frameRead s l (pleFrame x) (pleEpoch x) 0 65536
    setPle (frameWrite r.s l (pleFrame x) (lnEpoch r.s l) 0 r.data) l b i (setFld x 67 52 (lnEpoch r.s l))

/-- A bobbin becomes LOST (R278). -/
def loseBobbin (s : State) (l e : Nat) : State :=
  if (s.bobbin l e).state = 3 then s
  else s.updLn l (fun x => { x.updBobbin e (fun b => { b with state := 3 }) with lost := satAdd x.lost 1 })

/-- A bobbin freed: its frames, page list and Bolt slots are scrubbed and its entry is FREE (R289, R295). -/
def freeBobbin (s : State) (l e : Nat) : State :=
  let b := s.bobbin l e
  let p := lnPart s l
  let s := (List.range b.listCap).foldl (fun s i =>
    let x := ple s l b i
    if !pleValid x then s
    else
      let s := if pleLin x then (scrubLining s (frameAddr l (pleFrame x)) 65536).updLn l (fun y => { y with framesUsed := setDel y.framesUsed (pleFrame x) }) else s
      if pleBolt x || pleBslot x != 0 then
        let s := (List.range b.slotUnits).foldl (fun s k =>
          match xlate s p (0x20000000000 + 4096 * (pleBslot x + k)) false with
          | .bolt o _ _ => scrubBolt s o 4096
          | _ => s) s
        s.updLn l (fun y => { y with boltUsed := y.boltUsed.filter (fun u => u.1 != pleBslot x) })
      else s) s
  let s := scrubLining s (linBase l + 4096 * b.list) (16 * b.listCap)
  let sealedFrames := ((s.ln l).sealedPages.filter (fun q => q.entry == e)).map (·.frame)
  let s := sealedFrames.foldl (fun s f => scrubLining s (frameAddr l f) 65536) s
  s.updLn l (fun y => { y with
    bobbins := Table.put y.bobbins e {}
    ranges := y.ranges.filter (fun r => r.1 != b.list)
    framesUsed := y.framesUsed.filter (fun f => !sealedFrames.contains f)
    sealedPages := y.sealedPages.filter (fun q => q.entry != e)
    promos := y.promos.filter (fun q => q.entry != e)
    demos := y.demos.filter (fun q => q.1.entry != e) })

/-- One page sealed (R310): its narrowed values go to an extra frame; with no frame to be had the L node raises BOBBIN_SPACE. -/
def sealPage (s : State) (l e step i : Nat) : State :=
  let b := s.bobbin l e
  let space (s : State) : State := s.updNode (lNode l) (fun d => d.raiseL 0x1D 0 (some e) 0)
  match (if pleLin (ple s l b i) then some s else promotePage s l e i) with
  | none => space s
  | some s =>
    let s := freshEpoch s l b i
    match takeFrame s l with
    | none => space s
    | some (s, f) =>
      let x := ple s l b i
      let r := frameRead s l (pleFrame x) (pleEpoch x) 0 65536
      let s := frameWrite r.s l f (pleEpoch x) 0 (narrowed b r.data)
      s.updLn l (fun y => { y with sealedPages := y.sealedPages ++ [⟨e, i, step, f⟩], poison := if r.poison then setIns y.poison f else y.poison })

/-- Pages of a narrow bobbin that LENGTH newly covers are sealed at the commit of a step (R310); `old` is LENGTH before it. -/
def sealPages (s : State) (l e step old : Nat) : State :=
  let b := s.bobbin l e
  let tp := 2 ^ b.tpp
  if b.codec ≠ 2 then s
  else
    (List.range b.listCap).foldl (fun s i =>
      let last := (i / b.planes + 1) * tp
      if pleValid (ple s l b i) && decide (old < last) && decide (last ≤ b.length) then sealPage s l e step i else s) s

/-- The narrowed values replace the original once the step after the sealing one commits (R310). -/
def replaceSealed (s : State) (l step : Nat) : State :=
  ((s.ln l).sealedPages.filter (fun q => q.step + 1 == step)).foldl (fun s q =>
    let b := s.bobbin l q.entry
    let x := ple s l b q.page
    let e := if pleLin x then pleEpoch x else lnEpoch s l
    let s := setPle s l b q.page (mkPle true (pleBolt x) true true (pleCodec x) (pleClen x) q.frame (pleBslot x) e)
    s.updLn l (fun y => { y.updBobbin q.entry (fun b => if pleLin x then b else { b with linPages := b.linPages + 1 }) with
      framesUsed := if pleLin x then setDel y.framesUsed (pleFrame x) else y.framesUsed
      sealedPages := y.sealedPages.filter (fun z => z != q) })) s

end Sys2Proof.Machine
end

