-- ==== Sys2Proof/Machine/VecChan.lean ====
section
/-! DEFINITION. The CHN and KNT instructions of V and F cores, and the completion of what blocks (R193 to R196, R205, R672). -/

namespace Sys2Proof.Machine
open Sys2Proof

/-- A blocked operation may complete: its node is neither fenced, resetting, parked nor halted; a hold does not stop it (R404). -/
def Node.canComplete (nd : Node) : Bool := !nd.fenced && !nd.resetting && !nd.parked && !nd.halted

/-- A record described again from the header a blocked SEND keeps. -/
def outRecOf (h : U128) (data : List Byte) : OutRec :=
  { kind := rhKind h, token := rhToken h, tokval := rhTokval h, woff := rhWoff h, fill := rhFill h, notify := rhNotify h, poison := rhPoison h, data := data }

/-- A SEND or SENDTOK offered: done, or blocked on credit (R193, R194). -/
def offer (n : NodeId) (s : State) (ep : Nat) (r : OutRec) : Issued :=
  match trySend s n ep r with
  | some s => .done s 1 none
  | none => .block (setBlockedOut s n ep true) (.send ep (mkHdr 0 ep 0 0 0 r) r.data r.notify)

/-- SEND (R179, R193, R672): a tile, or scratchpad bytes checked as a read (R160, R171). -/
def execSend (n : NodeId) (w : VWord) (struck : Option Nat) (s : State) : Res :=
  vIssue n s true true (fun nd s =>
    let ep := vImmF w 7 0
    let o := nd.outEp ep
    let tile := bit w 8
    let len := if tile then 4096 else (nd.core.scalar (vB w)).toNat
    let a := (nd.core.scalar (vA w)).toNat
    if outMode o.desc = 0 then .fault s 0x0B 0 0
    else if len = 0 ∨ 8192 < len ∨ 64 * outMaxrec o.desc < recBytes len then .fault s 0x0C 0 0
    else if !tile && decide (padBytes n < a + len) then .fault s 0x05 0 0
    else
      let c := if tile then (nd.pad, Access.ok) else padReadCheck n nd.pad a len struck
      match c with
      | (p, .stop code tag) => .fault (setPad n s p) code 0 tag
      | (p, .ok) =>
        let win := outMode o.desc == 2
        let data := if tile then tileBytes (nd.core.tile (vA w)) else p.read a len
        offer n (setPad n s p) ep { kind := 0, woff := if win then (nd.core.scalar (vC w)).toNat / 64 % 2 ^ 17 else 0,
                                    fill := win && bit w 9, notify := win && bit w 10, data := data })

/-- SENDTOK (R194, R672). -/
def execSendtok (n : NodeId) (w : VWord) (s : State) : Res :=
  vIssue n s true true (fun nd s =>
    let ep := vImmF w 7 0
    let tok := vImmF w 11 8
    if outMode (nd.outEp ep).desc = 0 ∨ tok = 0 ∨ 3 < tok then .fault s 0x0B 0 0
    else offer n s ep { kind := 1, token := tok, tokval := fld (nd.core.scalar (vA w)) 15 0 })

/-- The credit a blocked SEND or SENDTOK waited for has come (R184, R185, R191, R193). -/
def execSendProceeds (n : NodeId) (s : State) : Res :=
  onNode [.v, .f] n s (fun s =>
    let nd := s.node n
    match nd.core.blocked with
    | some (.send ep h data _) =>
      if nd.canComplete then
        match trySend s n ep (outRecOf h data) with
        | some s => (setBlockedOut s n ep false).updNode n (fun d => d.retire 1 none)
        | none => s
      else s
    | _ => s)

/-- A SEAM at the head of an endpoint that is no longer sealed is released (R242). -/
def dropSeam (s : State) (n : NodeId) (ep : Nat) : State :=
  let nd := s.node n
  let e := nd.inEp ep
  match e.recs with
  | r :: _ =>
    if e.returned = 0 ∧ rhKind r.hdr = 1 ∧ rhToken r.hdr = 4 ∧ !nd.pat.isSealed ep then
      creditIfDue (consumed (s.updNode n (fun d => releaseRecs d ep 1)) n) n ep false
    else s
  | [] => s

/-- The release that a RECV begins with, unless HOLD (R195 item 1, R242). -/
def recvRelease (s : State) (n : NodeId) (ep : Nat) (hold : Bool) : State :=
  if hold then s else dropSeam (releaseReturned s n ep) n ep

/-- RECV's result: the payload address to sD and the descriptor word to sB (R195); none while no record is visible. -/
def recvTake (s : State) (n : NodeId) (ep d b : Nat) : Option State :=
  let nd := s.node n
  match nextVisible nd ep with
  | none => none
  | some i =>
    match (nd.inEp ep).recs[i]? with
    | none => none
    | some r =>
      some (s.updNode n (fun x =>
        let x := x.updIn ep (fun e => { e with returned := i + 1 })
        { x with core := (x.core.setScalar d (BitVec.ofNat 64 r.addr)).setScalar b (recvWord r.hdr) }))

/-- RECV (R195, R672): IMM[9] is 0. -/
def execRecv (n : NodeId) (w : VWord) (s : State) : Res :=
  if bit w 9 then .fault .otherRow
  else vIssue n s true true (fun nd s =>
    let ep := vImmF w 7 0
    if inMode (nd.inEp ep).desc = 0 then .fault s 0x0B 0 0
    else
      let s := recvRelease s n ep (bit w 8)
      match recvTake s n ep (vD w) (vB w) with
      | some s => .done s 1 none
      | none => .block (setBlockedIn s n ep true) (.recv ep (vD w) (vB w)))

/-- RECV RELONLY (R195 item 2): IMM[9] is 1. -/
def execRecvRelonly (n : NodeId) (w : VWord) (s : State) : Res :=
  if !bit w 9 then .fault .otherRow
  else vIssue n s true true (fun nd s =>
    let ep := vImmF w 7 0
    if inMode (nd.inEp ep).desc = 0 then .fault s 0x0B 0 0
    else .done (recvRelease s n ep (bit w 8)) 1 none)

/-- Endpoints of a RECVANY mask, lowest first. -/
def maskEps (m : Nat) : List Nat := (List.range 64).filter (fun i => (m >>> i) % 2 = 1)

/-- RECVANY's choice: the lowest-numbered endpoint with a visible record, taken by the rules of RECV (R196). -/
def recvAnyTake (s : State) (n : NodeId) (mask d b c : Nat) (hold : Bool) : Option State :=
  match (maskEps mask).find? (fun ep => (nextVisible ((dropSeam s n ep).node n) ep).isSome) with
  | none => none
  | some ep =>
    let s := recvRelease s n ep hold
    (recvTake s n ep d b).map (fun s => s.updNode n (fun x => { x with
      core := x.core.setScalar c (BitVec.ofNat 64 ep)
      pad := { x.pad with recvanyCount := satAdd x.pad.recvanyCount 1 } }))

/-- RECVANY (R196, R672). -/
def execRecvany (n : NodeId) (w : VWord) (s : State) : Res :=
  vIssue n s true true (fun nd s =>
    let mask := (nd.core.scalar (vA w)).toNat
    let eps := maskEps mask
    if eps.isEmpty || eps.any (fun ep => inMode (nd.inEp ep).desc == 0) then .fault s 0x0B 0 0
    else
      match recvAnyTake s n mask (vD w) (vB w) (vC w) (bit w 8) with
      | some s => .done s 1 none
      | none => .block (eps.foldl (fun s ep => setBlockedIn s n ep true) s) (.recvAny mask (vD w) (vB w) (vC w) (bit w 8)))

/-- A blocked RECV or RECVANY finds its record (R195, R196, R242). -/
def execRecvCompletes (n : NodeId) (s : State) : Res :=
  onNode [.v, .f] n s (fun s =>
    let nd := s.node n
    if !nd.canComplete then s
    else
      match nd.core.blocked with
      | some (.recv ep d b) =>
        match recvTake (dropSeam s n ep) n ep d b with
        | some s => (setBlockedIn s n ep false).updNode n (fun x => x.retire 1 none)
        | none => s
      | some (.recvAny mask d b c hold) =>
        match recvAnyTake s n mask d b c hold with
        | some s => ((maskEps mask).foldl (fun s ep => setBlockedIn s n ep false) s).updNode n (fun x => x.retire 1 none)
        | none => s
      | _ => s)

/-- A knot request sent from a node to the L node that holds the knot (R199, R204). -/
def sendKnot (s : State) (n : NodeId) (op knot ticket value : Nat) : State :=
  let p := ((s.node n).part).getD 16
  sendPacket s n ⟨lNode (knot / 256), 0⟩ tyKnot 0 p (knotPay op p knot ticket n 0 value 0) []

/-- An identifier that names an L node (R199). -/
def knotValid (knot : Nat) : Bool := decide (knot / 256 < 252)

/-- A posted operation sent under the next ticket (R205). -/
def postKnot (s : State) (n : NodeId) (op knot value : Nat) : State :=
  let t := (s.node n).core.ticket
  (sendKnot s n op knot t value).updNode n (fun d => { d with
    core := { d.core with ticket := (t + 1) % 255, posted := d.core.posted ++ [t] } })

/-- ARRIVE, ADD and RESET (R205): posted; a ninth blocks. -/
def knotPosted (n : NodeId) (w : VWord) (op : Nat) (s : State) : Res :=
  vIssue n s true true (fun nd s =>
    let knot := fld (nd.core.scalar (vA w)) 15 0
    let v := if op = 1 then 0 else fld (nd.core.scalar (vB w)) 31 0
    if !knotValid knot then .fault s 0x0D 0 0
    else if nd.core.posted.length < 8 then .done (postKnot s n op knot v) 1 none
    else .block s (.knotPost op knot v))
def execKntArrive (n : NodeId) (w : VWord) (s : State) : Res := knotPosted n w 1 s
def execKntAdd (n : NodeId) (w : VWord) (s : State) : Res := knotPosted n w 2 s
def execKntReset (n : NodeId) (w : VWord) (s : State) : Res := knotPosted n w 4 s

/-- WAIT blocks issue until its reply (R205). -/
def execKntWait (n : NodeId) (w : VWord) (s : State) : Res :=
  vIssue n s true true (fun nd s =>
    let knot := fld (nd.core.scalar (vA w)) 15 0
    let t := nd.core.ticket
    if !knotValid knot then .fault s 0x0D 0 0
    else
      let s := sendKnot s n 3 knot t (fld (nd.core.scalar (vB w)) 31 0)
      .block (s.updNode n (fun d => { d with core := { d.core with ticket := (t + 1) % 255 } })) (.knotWait t))

/-- A knot reply at a node (R203, R205). -/
def knotReplyNode (s : State) (n : NodeId) (p : Packet) : State :=
  let t := fld p.pay 103 96
  let st := fld p.pay 79 72
  let nd := s.node n
  let waiting := match nd.core.blocked with | some (.knotWait u) => u == t | _ => false
  let s := s.updNode n (fun d => { d with core := { d.core with posted := d.core.posted.filter (fun u => u != t) } })
  if st = 1 then s.updNode n (fun d => raiseAt n d 0x0D 0 0)
  else if st = 3 then s.updNode n (fun d => raiseAt n d 0x18 0 0)
  else if st = 2 then
    s.updNode n (fun d => { d with core := { d.core with retry := some (fld p.pay 119 104, fld p.pay 63 32, t) } })
  else if waiting then s.updNode n (fun d => if d.canComplete then d.retire 1 none else d)
  else
    match (s.node n).core.blocked with
    | some (.knotPost op knot v) =>
      if (s.node n).canComplete && decide ((s.node n).core.posted.length < 8) then (postKnot s n op knot v).updNode n (fun d => d.retire 1 none) else s
    | _ => s

end Sys2Proof.Machine
end

