-- ==== Sys2Proof/Machine/LService.lean ====
section
/-! DEFINITION. What an L node serves: requests, appends, prefetch, promotion, demotion and scrub (R272 to R279, R296 to R307, R346, R401,
R679). -/

namespace Sys2Proof.Machine
open Sys2Proof

/-- The stream table entry of an L node's stream (R296). -/
def streamWord (p : Pat) (e : Nat) : U64 := BitVec.ofNat 64 ((p.image p.active).num (p.hdr p.active 12 2 + 8 * e) 8)
def streamRole (p : Pat) (e : Nat) : Nat := fld (streamWord p e) 63 62
def streamStep (p : Pat) (e : Nat) : Bool := bit (streamWord p e) 61
def streamPfd (p : Pat) (e : Nat) : Nat := fld (streamWord p e) 60 57

/-- Records served and waiting for credit go out, in order on each output (R301, R302). -/
def pumpOutbox (s : State) (n : NodeId) : State :=
  let r := (s.node n).ln.outbox.foldl (fun (r : State × List Nat × List OutMsg) m =>
    if r.2.1.contains m.ep then (r.1, r.2.1, r.2.2 ++ [m])
    else
      match trySend r.1 n m.ep { kind := if m.token = 0 then 0 else 1, token := m.token, tokval := m.tokval, poison := m.poison, data := m.data } with
      | some s => (setBlockedOut s n m.ep false, r.2.1, r.2.2)
      | none => (setBlockedOut r.1 n m.ep true, m.ep :: r.2.1, r.2.2 ++ [m])) (s, [], [])
  r.1.updNode n (fun d => { d with ln := { d.ln with outbox := r.2.2 } })

/-- A request or append header (R297, R298). -/
structure SrvReq where
  op : Nat
  out : Nat
  entry : Nat
  plane : Nat
  first : Nat
  count : Nat
def srvReq (d : List Byte) : SrvReq :=
  let f (a n : Nat) := leNat ((d.drop a).take n)
  ⟨f 0 1, f 1 1, f 2 2, f 4 2, f 8 4, f 12 4⟩

/-- What a service does with the record at the head of its input. -/
inductive Served where
  /-- Served: the record is released. -/
  | done (s : State)
  /-- It waits for a page or a later command. -/
  | wait (s : State)
  | fault (s : State) (code : Nat)

/-- Bytes an operation's record needs (R679). -/
def opNeeds (op : Nat) : Option Nat := if op = 1 ∨ op = 2 ∨ op = 3 then some 32 else if op = 0x10 ∨ op = 0x11 then some 16 else none

/-- The frame of every service command: the record at the head of a service input of a serving L node. Tokens other than SEAM are released;
malformed records raise BOBBIN_RANGE (R679); an input whose STEP_END is taken waits for the MARK (R302); a record of another OP is left to
its own row (log 10). -/
def service (n : NodeId) (ep : Nat) (s : State) (ops : Nat → Bool) (f : SrvReq → List Byte → State → Served) : Res :=
  if !(nodeExists n && kindOf n == .l && decide (ep < 256)) then .fault .noSuchUnit
  else
    .next (
      let on (nd : Node) : Bool := nd.live && (nd.pat.phase == .inStep || nd.pat.phase == .waitCommit)
      let s := if on (s.node n) then dropSeam s n ep else s
      let nd := s.node n
      if !on nd || streamRole nd.pat ep != 1 || nd.ln.stepEnds.contains ep then s
      else
        match (nd.inEp ep).recs with
        | [] => s
        | r :: _ =>
          let release (s : State) : State := creditIfDue (consumed (s.updNode n (fun d => releaseRecs d ep 1)) n) n ep false
          if rhKind r.hdr = 1 then (if rhToken r.hdr = 4 then s else release s)
          else
            let d := nd.pad.read r.addr (rhLen r.hdr)
            let q := srvReq d
            match opNeeds q.op with
            | none => s.updNode n (fun d => d.raiseL 0x1C ep none 0)
            | some k =>
              if d.length < k then s.updNode n (fun d => d.raiseL 0x1C ep none 0)
              else if !ops q.op then s
              else
                match f q d s with
                | .done s => release s
                | .wait s => s
                | .fault s code => s.updNode n (fun d => d.raiseL code ep (if q.entry < 4096 then some q.entry else none) 0))

/-- The pages of tokens [first, first+count) of a plane: page-list index, first token and count in the page. -/
def tokenPages (b : Bobbin) : Nat → Nat → Nat → Nat → List (Nat × Nat × Nat)
  | 0, _, _, _ => []
  | fuel + 1, plane, first, count =>
    if count = 0 then []
    else
      let k := min count (2 ^ b.tpp - first % 2 ^ b.tpp)
      (b.pageOf first plane, first, k) :: tokenPages b fuel plane (first + k) (count - k)
def pagesOf (b : Bobbin) (plane first count : Nat) : List (Nat × Nat × Nat) := tokenPages b (count / 2 ^ b.tpp + 2) plane first count

/-- A page-list entry that exists holds a page not in the Lining (R305). -/
def pageAway (s : State) (l : Nat) (b : Bobbin) (i : Nat) : Bool :=
  let x := ple s l b i
  decide (i < b.listCap) && pleValid x && !pleLin x

/-- A request's own page is promoted ahead of everything a prefetcher ordered; PF_MISS counts it once (R305). -/
def demandPage (s : State) (l e i : Nat) : State :=
  let x := s.ln l
  if x.promos.any (fun q => q.entry == e && q.page == i && q.pf == 0) then s
  else s.updLn l (fun x => { x with
    pfMiss := satAdd x.pfMiss 1
    promos := ⟨e, i, 0⟩ :: x.promos.filter (fun q => !(q.entry == e && q.page == i)) })

/-- A prefetcher takes pages in ascending page-list order, or the prefetch is dropped (R303). -/
def prefetch (s : State) (l e : Nat) (pages : List Nat) : State :=
  let b := s.bobbin l e
  let want := (pages.filter (fun i => pageAway s l b i && !(s.ln l).promos.any (fun q => q.entry == e && q.page == i))).foldl setIns []
  if want.isEmpty then s
  else
    match (rangeFrom 1 32).find? (fun k => !(s.ln l).promos.any (fun q => q.pf == k)) with
    | none => s.updLn l (fun x => { x with pfDropped := satAdd x.pfDropped 1 })
    | some k => s.updLn l (fun x => { x with promos := x.promos ++ want.map (fun i => (⟨e, i, k⟩ : PageMove)) })

/-- The bytes of tokens within one page as a read in the running step sees them (R301, R310): zeros of a page that does not exist. -/
def readTokens (s : State) (l e : Nat) (pg : Nat × Nat × Nat) (struck : Option Nat) : MemRead :=
  let b := s.bobbin l e
  let B := b.tokenBytes
  let n := pg.2.2 * B
  let off := pg.2.1 % 2 ^ b.tpp * B
  let x := ple s l b pg.1
  if b.listCap ≤ pg.1 ∨ !pleValid x then ⟨s, List.replicate n 0, false⟩
  else
    let now := (s.node (lNode l)).pat.current.toNat
    let frame := match (s.ln l).sealedPages.find? (fun q => q.entry == e && q.page == pg.1) with
      | some q => if q.step + 2 ≤ now then q.frame else pleFrame x
      | none => pleFrame x
    frameRead (linStrikeIn s (frameAddr l frame + off) n struck) l frame (pleEpoch x) off n

/-- READ (R278, R301, R303, R305, R401). `struckWord` is a Lining address whose cells a physical cause upset; `differ` is a difference of the
duplicated engines. -/
def execSrvRead (n : NodeId) (ep : Nat) (struckWord : Option Nat) (differ : Bool) (s : State) : Res :=
  service n ep s (· == 1) (fun q _ s =>
    let l := lIndex n
    let nd := s.node n
    let b := s.bobbin l q.entry
    if 4096 ≤ q.entry ∨ streamRole nd.pat q.out ≠ 2 ∨ b.state = 0 ∨ b.state = 4 ∨ b.part ≠ lnPart s l ∨ b.planes ≤ q.plane then .fault s 0x1C
    else if b.state = 3 then
      .done (pumpOutbox (s.updLn l (fun x => { x with outbox := x.outbox ++ (pagesOf b q.plane q.first q.count).map (fun _ =>
        ({ src := ep, ep := q.out, token := 3, tokval := 0xFFFF, poison := false, data := [] } : OutMsg)) })) n)
    else if b.readEnd < q.first + q.count then .fault s 0x1C
    else
      let s := s.updBobbin l q.entry (fun b => { b with lastStep := nd.pat.current.toNat })
      let pages := pagesOf b q.plane q.first q.count
      let away := pages.filter (fun p => pageAway s l b p.1)
      if !away.isEmpty then .wait (away.foldl (fun s p => demandPage s l q.entry p.1) s)
      else if differ && (s.cfg (lnPart s l)).prot then .fault s 0x23
      else
        let cap := max 1 (min 8192 ((outMaxrec (nd.outEp q.out).desc - 1) * 64))
        let s := pages.foldl (fun s p =>
          let r := readTokens s l q.entry p struckWord
          let recs := (chunks cap ((r.data.length + cap - 1) / cap) r.data).map (fun d =>
            ({ src := ep, ep := q.out, token := 0, tokval := 0, poison := r.poison, data := d } : OutMsg))
          r.s.updLn l (fun x => { x with outbox := x.outbox ++ recs })) s
        let d := streamPfd nd.pat ep
        let ahead := (rangeFrom 1 d).flatMap (fun k => (pagesOf b ((q.plane + k) % max 1 b.planes) q.first q.count).map (·.1))
        .done (pumpOutbox (if d = 0 then s else prefetch s l q.entry ahead) n))

/-- HINT promotes its named range (R295, R303, R679). -/
def execHint (n : NodeId) (ep : Nat) (s : State) : Res :=
  service n ep s (· == 2) (fun q _ s =>
    let l := lIndex n
    let b := s.bobbin l q.entry
    if 4096 ≤ q.entry ∨ b.state = 0 ∨ b.part ≠ lnPart s l then .fault s 0x1C
    else .done (prefetch s l q.entry ((pagesOf b q.plane q.first q.count).map (·.1))))

/-- STEP_END (R302). -/
def execStepEnd (n : NodeId) (ep : Nat) (s : State) : Res :=
  service n ep s (· == 3) (fun _ _ s =>
    .done (if streamStep (s.node n).pat ep then s.updNode n (fun d => { d with ln := { d.ln with stepEnds := setIns d.ln.stepEnds ep } }) else s))

/-- A page of an open bobbin made ready to be written: created with zeros, or brought under the current epoch (R288, R298). -/
def readyPage (s : State) (l e i : Nat) : Option State :=
  let b := s.bobbin l e
  if pleValid (ple s l b i) then some (freshEpoch s l b i)
  else
    match takeFrame s l with
    | none => none
    | some (s, f) =>
      let s := frameWrite s l f (lnEpoch s l) 0 (List.replicate 65536 0)
      let s := setPle s l b i (mkPle true false true false 0 0 f 0 (lnEpoch s l))
      some (s.updBobbin l e (fun b => { b with linPages := b.linPages + 1 }))

/-- Token bytes written at their place; the page is DIRTY, and so it stays past a demotion under way (R307). -/
def putTokens (s : State) (l e i first : Nat) (data : List Byte) : State :=
  let b := s.bobbin l e
  let x := ple s l b i
  let s := frameWrite s l (pleFrame x) (pleEpoch x) (first % 2 ^ b.tpp * b.tokenBytes) data
  let s := setPle s l b i (setFld x 124 124 1)
  s.updLn l (fun y => { y with demos := y.demos.map (fun q => if q.1.entry = e ∧ q.1.page = i then (q.1, true) else q) })

/-- Whether data of whole tokens lies within one page (R298, R346). -/
def tokensFit (b : Bobbin) (first len : Nat) : Bool :=
  len % b.tokenBytes == 0 && decide (first % 2 ^ b.tpp + len / b.tokenBytes ≤ 2 ^ b.tpp)

/-- APPEND (R278, R298, R300, R305, R306, R619). -/
def execAppend (n : NodeId) (ep : Nat) (s : State) : Res :=
  service n ep s (· == 0x10) (fun q d s =>
    let l := lIndex n
    let nd := s.node n
    let b := s.bobbin l q.entry
    let data := d.drop 16
    let toks := data.length / b.tokenBytes
    let i := b.pageOf q.first q.plane
    if q.entry < 4096 ∧ b.state = 3 ∧ b.part = lnPart s l then .done s
    else if 4096 ≤ q.entry ∨ b.state = 0 ∨ b.state = 4 ∨ b.part ≠ lnPart s l ∨ b.planes ≤ q.plane ∨ !tokensFit b q.first data.length ∨
        q.first < b.length ∨ b.listCap ≤ i then .fault s 0x1C
    else
      let now := nd.pat.current.toNat
      let s := s.updBobbin l q.entry (fun b => { b with lastStep := now })
      if data.isEmpty then .done s
      else if pageAway s l b i then .wait (demandPage s l q.entry i)
      else
        match readyPage s l q.entry i with
        | none => .fault s 0x1D
        | some s =>
          let s := putTokens s l q.entry i q.first data
          let top := q.first + toks
          let s := if bit (BitVec.ofNat 8 q.out) 0 then
              s.updBobbin l q.entry (fun b => if now % 2 = 0 then { b with end0 := max b.end0 top } else { b with end1 := max b.end1 top })
            else s
          let s := s.updLn l (fun x => { x with appended := x.appended ++ [(q.entry, q.plane, q.first, toks)] })
          let p := lnPart s l
          .done (if b.mirrored && mirrored s p then sendOn s p fAppend (lnStream p l) now (appendArg b.session q.plane q.first toks) data else s))

/-- REPLACE (R278, R346). -/
def execReplace (n : NodeId) (ep : Nat) (s : State) : Res :=
  service n ep s (· == 0x11) (fun q d s =>
    let l := lIndex n
    let b := s.bobbin l q.entry
    let data := d.drop 16
    let toks := data.length / b.tokenBytes
    let i := b.pageOf q.first q.plane
    if q.entry < 4096 ∧ b.state = 3 ∧ b.part = lnPart s l then .done s
    else if 4096 ≤ q.entry ∨ b.state ≠ 1 ∨ b.part ≠ lnPart s l ∨ q.out ≠ 0 ∨ b.planes ≤ q.plane ∨ !tokensFit b q.first data.length ∨
        b.length < q.first + toks ∨ b.listCap ≤ i ∨ b.mirrored ∨ b.codec ≠ 0 then .fault s 0x1C
    else if data.isEmpty then .done s
    else if pageAway s l b i then .wait (demandPage s l q.entry i)
    else
      match readyPage s l q.entry i with
      | none => .fault s 0x1D
      | some s => .done (putTokens s l q.entry i q.first data))

/-- The oldest promotion completes (R282, R304, R401): its page is verified, decoded and written to a frame. A missing frame raises
BOBBIN_SPACE for a request's own page and drops a prefetch (R303, R306). `tagOk` false is a line struck in the Bolt or on its way. -/
def execPromotionComplete (n : NodeId) (tagOk differ : Bool) (s : State) : Res :=
  if !(nodeExists n && kindOf n == .l) then .fault .noSuchUnit
  else
    let l := lIndex n
    let nd := s.node n
    .next (
      if !(nd.canComplete) then s
      else
        match nd.ln.promos with
        | [] => s
        | q :: rest =>
          let b := s.bobbin l q.entry
          let s := s.updLn l (fun x => { x with promos := rest })
          if !pageAway s l b q.page then s
          else if differ then s.updNode n (fun d => d.raiseL 0x23 0 (some q.entry) 0)
          else
            match promotePage s l q.entry q.page with
            | none => if q.pf = 0 then s.updNode n (fun d => d.raiseL 0x1D 0 (some q.entry) 0) else s
            | some s =>
              if tagOk then s
              else
                let f := pleFrame (ple s l b q.page)
                s.updNode n (fun d =>
                  ({ d with ln := { d.ln with boltMacFail := satAdd d.ln.boltMacFail 1, poison := setIns d.ln.poison f } } : Node).recordL 0x1F 0))

/-- The oldest demotion completes (R307 to R309, R401); an order whose page cannot go out leaves it in the Lining. -/
def execDemotionComplete (n : NodeId) (differ : Bool) (s : State) : Res :=
  if !(nodeExists n && kindOf n == .l) then .fault .noSuchUnit
  else
    let l := lIndex n
    let nd := s.node n
    .next (
      if !(nd.canComplete) then s
      else
        match nd.ln.demos with
        | [] => s
        | (q, touched) :: rest =>
          if differ then s.updNode n (fun d => ({ d with ln := { d.ln with demos := rest } } : Node).raiseL 0x23 0 (some q.entry) 0)
          else
            let s := s.updLn l (fun x => { x with demos := rest })
            match demotePage s l q.entry q.page touched with
            | none => s
            | some s =>
              let x := ple s l (s.bobbin l q.entry) q.page
              if pleValid x && pleLin x && !pleDirty x && !(s.ln l).sealedPages.any (fun z => z.entry == q.entry && z.page == q.page) then
                dropFrame s l q.entry q.page
              else s)

/-- One burst of the patrol scrub (R272 to R275): single-bit errors are corrected, an uncorrectable word poisons its page; a burst whose line
a write names at once is skipped until the next sweep (R274). -/
def execPatrolScrub (n : NodeId) (corrected : Nat) (struckWord : Option Nat) (skipped : Bool) (s : State) : Res :=
  if !(nodeExists n && kindOf n == .l) then .fault .noSuchUnit
  else
    let l := lIndex n
    let at' := (s.ln l).scrubAt
    .next (
      let s := if skipped then s else
        linStrikeIn (s.updLn l (fun x => { x with eccCorrected := satAdd x.eccCorrected corrected })) (linBase l + 1024 * at') 1024 struckWord
      s.updLn l (fun x => { x with
        scrubAt := (at' + 1) % 8388608
        scrubPasses := if at' + 1 = 8388608 then satAdd x.scrubPasses 1 else x.scrubPasses }))

end Sys2Proof.Machine
end

