-- ==== Sys2Proof/Machine/Arm.lean ====
section
/-! DEFINITION. Loading and arming a node, and the start of a step (R165, R178, R183, R211 to R221, R231, R236, R239). -/

namespace Sys2Proof.Machine
open Sys2Proof

/-- How many endpoints of each direction a node has (R174). -/
def epCount (n : NodeId) : Nat := match kindOf n with | .l => 256 | .c => 0 | _ => 64

/-- ROLE of an L node's stream in a slot (R296). -/
def roleIn (p : Pat) (k e : Nat) : Nat := fld (BitVec.ofNat 64 ((p.image k).num (p.hdr k 12 2 + 8 * e) 8)) 63 62
/-- The input and output descriptors that a slot gives an endpoint (R176); a disabled one has MODE 0. -/
def slotIn (n : NodeId) (p : Pat) (k e : Nat) : U128 := if kindOf n = .l then (if roleIn p k e = 1 then p.inDesc k e else 0) else p.inDesc k e
def slotOut (n : NodeId) (p : Pat) (k e : Nat) : U128 := if kindOf n = .l then (if roleIn p k e = 2 then p.inDesc k e else 0) else p.outDesc k e

/-- Loaded slots of a configuration. -/
def cfgSlots (p : Pat) (tag : Nat) : List Nat := p.loaded.filter (fun k => p.slotCtag k == tag)
/-- The home slot of a configuration (R219). -/
def homeSlot (p : Pat) (tag : Nat) : Nat := ((cfgSlots p tag).find? (fun k => p.slotHome k)).getD 0
/-- The descriptor that a configuration gives an endpoint: that of a slot which enables it. -/
def cfgIn (n : NodeId) (p : Pat) (tag e : Nat) : U128 := (((cfgSlots p tag).map (fun k => slotIn n p k e)).find? (fun d => inMode d != 0)).getD 0
def cfgOut (n : NodeId) (p : Pat) (tag e : Nat) : U128 := (((cfgSlots p tag).map (fun k => slotOut n p k e)).find? (fun d => outMode d != 0)).getD 0

/-- Byte ranges of a slot's sections: header, program, channel map, pad layout and loop table (R213, R214). -/
def sections (n : NodeId) (p : Pat) (k : Nat) : List (Nat × Nat) :=
  let unit := match kindOf n with | .m => 16 | _ => 8
  ([(0, 256), (p.hdr k 12 2, unit * p.progLen k), (p.hdr k 14 2, p.hdr k 16 2), (p.hdr k 18 2, p.hdr k 20 2)] ++
    (if kindOf n = .m then [(p.hdr k 22 2, 16 * p.hdr k 24 1)] else [])).filter (fun x => x.2 != 0)
/-- Ranges of which no two overlap. -/
def disjoint : List (Nat × Nat) → Bool
  | [] => true
  | x :: t => t.all (fun y => decide (x.1 + x.2 ≤ y.1) || decide (y.1 + y.2 ≤ x.1)) && disjoint t
def sectionsOk (n : NodeId) (p : Pat) (k : Nat) : Bool :=
  let ss := sections n p k
  ss.all (fun x => decide (x.1 + x.2 ≤ 65536)) && disjoint ss &&
  (match kindOf n with | .m => decide (p.progLen k ≤ 3840) | .l => p.progLen k == 256 | _ => decide (p.progLen k ≤ 7680)) && p.hdr k 12 2 % 64 == 0

/-- A region record of the pad layout (R215). -/
structure RegionRec where
  pad : Nat
  first : Nat
  count : Nat
  use : Nat
  tagged : Bool
  init : Nat
  src : Nat
/-- The region records of a slot. -/
def regionRecs (p : Pat) (k : Nat) : List RegionRec :=
  (List.range ((p.hdr k 20 2 - 16) / 16)).map (fun i =>
    let w : U128 := BitVec.ofNat 128 ((p.image k).num (p.hdr k 18 2 + 16 + 16 * i) 16)
    ⟨fld w 127 126, fld w 125 113, fld w 112 100, fld w 99 97, bit w 96, fld w 95 94, fld w 93 62⟩)
def regionOk (n : NodeId) (r : RegionRec) : Bool :=
  decide (1 ≤ r.count) && decide (1 ≤ r.use) && decide (r.use ≤ 4) && decide (r.init ≤ 2) && !(r.use == 3 && r.tagged) &&
  decide (4096 * (r.first + r.count) ≤ (padRange n r.pad).2)
/-- Slots of a region in the numbering of FILL_TAGS. -/
def regionSlots (n : NodeId) (r : RegionRec) : List Nat := rangeFrom ((padRange n r.pad).1 / 4096 + r.first) r.count

/-- An immediate branch target of a V or F program at or beyond PROG_LEN (R217): LOOP COUNT and JUMP, and BRTOK. -/
def badTarget (p : Pat) (k : Nat) : Bool :=
  (List.range (p.progLen k)).any (fun i =>
    let w : U64 := BitVec.ofNat 64 ((p.image k).num (p.hdr k 12 2 + 8 * i) 8)
    fld w 63 60 == 0 && ((fld w 59 54 == 1 && (fld w 23 22 == 0 || fld w 23 22 == 3)) || fld w 59 54 == 2) && decide (p.progLen k ≤ fld w 15 0))
/-- M loop bodies disjoint or strictly nested, at most 8 (R226, R227). -/
def loopsOk (p : Pat) (k : Nat) : Bool :=
  let ls := (loopTable p k).zipIdx
  decide (ls.length ≤ 8) && ls.all (fun a => decide (a.1.first ≤ a.1.last)) &&
  ls.all (fun a => ls.all (fun b => a.2 == b.2 || decide (a.1.last < b.1.first) || decide (b.1.last < a.1.first) ||
    (decide (a.1.first ≤ b.1.first) && decide (b.1.last ≤ a.1.last) && (a.1.first, a.1.last) != (b.1.first, b.1.last)) ||
    (decide (b.1.first ≤ a.1.first) && decide (a.1.last ≤ b.1.last) && (a.1.first, a.1.last) != (b.1.first, b.1.last))))

/-- The loader refuses a pattern: PATTERN_RANGE (R217). -/
def slotRefused (n : NodeId) (p : Pat) (k : Nat) : Bool :=
  p.hdr k 2 1 != (kindOf n).code || !sectionsOk n p k || !(regionRecs p k).all (regionOk n) ||
  ((kindOf n == .v || kindOf n == .f) && badTarget p k) || (kindOf n == .m && !loopsOk p k)

/-- An enabled descriptor breaks R178 at its own node. -/
def inBad (n : NodeId) (d : U128) : Bool :=
  inMode d == 3 || (inMode d != 0 && (decide (inMaxrec d < 2) || decide (129 < inMaxrec d) || inSize d == 0 ||
    decide ((padRange n (inPad d)).1 + (padRange n (inPad d)).2 < inStart n d + inBytes d) ||
    (inMode d == 1 && decide (inBytes d < 2 * inMaxrec d * 64)) || (inMode d == 2 && decide (2048 < inSize d)) || (kindOf n == .m && inMode d == 1)))
def outBad (n : NodeId) (d : U128) : Bool :=
  outMode d == 3 || (outMode d != 0 && (decide (outMaxrec d < 2) || decide (129 < outMaxrec d) || outSize d == 0 || (kindOf n == .l && outMode d != 1)))
/-- Two patterns of one configuration that differ on an endpoint both enable (R218). -/
def descConflict (n : NodeId) (p : Pat) (tag e : Nat) : Bool :=
  let one (ds : List U128) : Bool := match ds.filter (fun d => fld d 103 102 != 0) with | [] => false | d :: t => t.any (fun x => x != d)
  one ((cfgSlots p tag).map (fun k => slotIn n p k e)) || one ((cfgSlots p tag).map (fun k => slotOut n p k e))
/-- An output's descriptor and its receiver's differ (R178). A host endpoint has no node descriptor. -/
def pairBad (s : State) (n : NodeId) (tag e : Nat) : Option NodeId :=
  let d := cfgOut n (s.node n).pat tag e
  if outMode d = 0 ∨ fld d 127 120 = 0xFF then none
  else
    let m := nodeAt (fld d 127 120) (fld d 119 112)
    let i := cfgIn m (s.node m).pat tag (fld d 111 104)
    if outMode d = inMode i ∧ outCtag d = inCtag i ∧ outMaxrec d = inMaxrec i ∧ outSize d = inSize i then none else some m

/-- Faults of arming a region: (node, code) (R178, R217, R218). -/
def armFaults (s : State) (ns : List NodeId) (tag : Nat) : List (NodeId × Nat) :=
  ns.flatMap (fun n =>
    let p := (s.node n).pat
    let es := List.range (epCount n)
    (if (cfgSlots p tag).any (slotRefused n p) then [(n, 0x1A)] else []) ++
    (if es.any (fun e => inBad n (cfgIn n p tag e) || outBad n (cfgOut n p tag e) || descConflict n p tag e) then [(n, 0x0B)] else []) ++
    (es.filterMap (pairBad s n tag)).flatMap (fun m => [(n, 0x0B), (m, 0x0B)]))

/-- An endpoint freshly armed (R183, R191): a sender holds the whole ring, or 64 window entries. -/
def armedIn (d : U128) : Ep := { desc := d }
def armedOut (d : U128) : Ep := { desc := d, credit := if outMode d = 2 then 64 else 4096 * outSize d }

/-- A node's endpoints armed for a configuration. -/
def armEps (n : NodeId) (nd : Node) (tag : Nat) : Node :=
  let es := List.range (epCount n)
  { nd with
    ins := (es.map (fun e => (e, cfgIn n nd.pat tag e))).filter (fun x => inMode x.2 != 0) |>.map (fun x => (x.1, armedIn x.2))
    outs := (es.map (fun e => (e, cfgOut n nd.pat tag e))).filter (fun x => outMode x.2 != 0) |>.map (fun x => (x.1, armedOut x.2)) }

/-- Endpoints that only the loaded next configuration enables, armed at load (R239). -/
def armNext (n : NodeId) (nd : Node) (tag : Nat) : Node :=
  let es := List.range (epCount n)
  let nd := es.foldl (fun nd e =>
    let d := cfgIn n nd.pat tag e
    if inMode d != 0 && inMode (nd.inEp e).desc == 0 then nd.setIn e { armedIn d with nextOnly := true } else nd) nd
  es.foldl (fun nd e =>
    let d := cfgOut n nd.pat tag e
    if outMode d != 0 && outMode (nd.outEp e).desc == 0 then nd.setOut e { armedOut d with nextOnly := true } else nd) nd

/-- The pad layout's effect at load: CHECKED, TAGGED, and each region's INIT; a filled RESIDENT region is FILLED (R168, R215, R216). -/
def layPads (n : NodeId) (data : Memory) (nd : Node) (k : Nat) : Node :=
  let p := nd.pat
  let word := (p.image k).num (p.hdr k 18 2) 16
  let recs := regionRecs p k
  let pad0 : Pad := if p.hdr k 20 2 = 0 then nd.pad else { nd.pad with checked := word % 2 == 1 }
  { nd with pad := recs.foldl (fun (q : Pad) r =>
      let slots := regionSlots n r
      let a := (padRange n r.pad).1 + 4096 * r.first
      let q := { q with tagged := slots.foldl (fun b s => setBits b s 1 r.tagged) q.tagged }
      match r.init with
      | 1 => { q with valid := q.valid.filter (fun l => decide (64 * l < a) || decide (a + 4096 * r.count ≤ 64 * l)) }
      | 2 =>
        let q := q.write a (data.bytes (64 * r.src) (4096 * r.count))
        if r.use = 1 then q.fill slots else q
      | _ => q) pad0 }

/-- Counters cleared when the partition is armed (R110, R151, R208, R209, R258, R316). -/
def Node.clearCounters (nd : Node) : Node :=
  { nd with
    core := { nd.core with satEvents := 0, residue := 0, fnCompare := 0, fnRange := 0, kclamp := 0, degen := 0, issueCycles := 0, retired := 0 }
    mc := { nd.mc with
      prodTrunc := 0, anchorClamp := 0, ppadTrunc := 0, drainOvf := 0, drainNan := 0, ckMismatch := 0, ckBounded := 0, ckUnchecked := 0
      sweepMismatch := 0, preload := 0, stream := 0, drainCycles := 0, stallOperand := 0, stallFtq := 0, tilesReleased := 0, pspill := 0 }
    pad := { nd.pad with
      parityErrors := 0, narrowForced := 0, rbfUnchecked := 0, obdUnchecked := 0, ownerRefused := 0, recvanyCount := 0, knotRetries := 0 }
    ln := { nd.ln with boltMacFail := 0, boltOdecc := 0, pfPromoted := 0, pfDemoted := 0, pfMiss := 0, pfStall := 0, pfDropped := 0, cacheHits := 0,
                       cacheMisses := 0, refused := 0, lost := 0 }
    pat := { nd.pat with
      stepWork := 0, stepInstr := 0, rates := [], replays := 0, seamDiscards := 0, commitWait := 0, slotSwitches := 0, seamWait := 0, timingAt := (0, 0, 0) } }

/-- Where an M sequencer begins: the home ENTRY with its loops entered (R227, R231). -/
def MCore.fresh (m : MCore) (p : Pat) (slot : Nat) : MCore :=
  ({ m with window := [], groups := [], planes := [], flights := [], drains := [], ftqUsed := 0, maskUsed := 0, cuffs := [], shadow := false,
            lastPass := none, passSeq := 0 } : MCore).setPos (settle (loopTable p slot) 16 ⟨slot, p.entry slot, [], none⟩)

/-- Step t begun afresh from the home pattern (R219, R231): registers zero but for s31, counters from CINIT, issue at ENTRY, an M sequencer empty. -/
def Node.startStep (n : NodeId) (nd : Node) (t : Nat) : Node :=
  let p := nd.pat
  let core : Core := { nd.core with tiles := [], scalars := [(31, BitVec.ofNat 64 t)], preds := [], counters := [], reloads := [], blocked := none,
                                    pc := BitVec.ofNat 16 (p.entry p.home) }
  { nd with
    core := if kindOf n = .v ∨ kindOf n = .f then loadCinit p p.home 0 core else nd.core
    mc := if kindOf n = .m then nd.mc.fresh p p.home else nd.mc
    ln := { nd.ln with stepEnds := [], appended := [] }
    ins := nd.ins.mapVals (fun _ e => { e with msgsAtMark := e.msgs })
    outs := nd.outs.mapVals (fun _ e => { e with tap := [], msgsAtMark := e.msgs })
    pat := { p with active := p.home, current := BitVec.ofNat 32 t, phase := .inStep, runWork := 0, runInstr := 0, runRates := [], veto := false } }

/-- The work counters of the step that ends latch (R231). -/
def Node.latch (nd : Node) : Node :=
  { nd with pat := { nd.pat with stepWork := nd.pat.runWork, stepInstr := nd.pat.runInstr, rates := nd.pat.runRates } }

/-- SEQ_RUN set at arm, with PRIO of an M core (R110, R151, R348). -/
def Node.runSeq (n : NodeId) (nd : Node) : Node :=
  { nd with
    core := { nd.core with run := kindOf n == .v || kindOf n == .f }
    mc := { nd.mc with run := kindOf n == .m, prio := nd.pat.hdr nd.pat.home 3 1 / 8 % 4 } }

/-- A node armed for a configuration tag (R178, R183, R219): counters, endpoints, home pattern. -/
def armNode (n : NodeId) (tag : Nat) (nd : Node) : Node :=
  let nd := (armEps n nd tag).clearCounters
  let h := homeSlot nd.pat tag
  ({ nd with
    pat := { nd.pat with home := h, active := h, ctag := tag, nextCtag := tag, nextValid := false, seamOrder := false, sealed := 0, veto := false
                         held := false, phase := .armed, replayPending := false }
    core := { nd.core with blocked := none, posted := [], retry := none, patrolDue := false }
    ln := { nd.ln with outbox := [], promos := [], stepEnds := [], appended := [] }
    halted := false } : Node).runSeq n

/-- Owner banks of a node taken for a partition (R165): where the tag differs, valid bits, FILLED and block tags of the bank are cleared. -/
def assignOwner (n : NodeId) (p : Nat) (dom : Nat) (prot : Bool) (nd : Node) : Node :=
  let tag : U64 := mkWord 64 [(16, 1), (15, b2n prot), (10, dom), (6, p)]
  let banks := List.range (padBytes n / 0x100000)
  { nd with pad := banks.foldl (fun (q : Pad) b =>
      let old := q.owner b
      if bit old 16 && fld old 14 10 == dom && fld old 9 6 == p then { q with owners := Table.put q.owners b tag }
      else
        { q with
          owners := Table.put q.owners b tag
          valid := q.valid.filter (fun l => l / 16384 != b)
          bad := q.bad.filter (fun w => w / 262144 != b)
          filled := setBits q.filled (256 * b) 256 false
          blocks := q.blocks.filter (fun x =>
            let a := if x.1 < 49152 then unitAddr 0 x.1 else unitAddr 1 (x.1 - 49152)
            bankOf a != b) }) nd.pad }

/-- Owner tags of a node withdrawn (R163, R455). -/
def dropOwner (n : NodeId) (nd : Node) : Node :=
  { nd with pad := { nd.pad with owners := (List.range (padBytes n / 0x100000)).foldl (fun t b => Table.del t b) nd.pad.owners } }

end Sys2Proof.Machine
end

