-- ==== Sys2Proof/Machine/HostStat.lean ====
section
/-! DEFINITION. What the hem tells the host: completions, vectors and job status words; and changes of partition state (R515 to R518, R534,
R542, R546, R552 to R555). -/

namespace Sys2Proof.Machine
open Sys2Proof

def HostFn.ring (x : HostFn) (r : Nat) : Ring := Table.get {} x.rings r
def HostFn.updRing (x : HostFn) (r : Nat) (g : Ring → Ring) : HostFn := { x with rings := Table.put x.rings r (g (x.ring r)) }
/-- A function of the active hem. -/
def State.fn (s : State) (f : Nat) : HostFn := s.hem.fn f
def State.updFn (s : State) (f : Nat) (g : HostFn → HostFn) : State := s.updHem (fun h => h.updFn f g)
def State.ring (s : State) (f r : Nat) : Ring := (s.fn f).ring r
def State.updRing (s : State) (f r : Nat) (g : Ring → Ring) : State := s.updFn f (fun x => x.updRing r g)

/-- RING_CFG fields (R539). -/
def Ring.enabled (x : Ring) : Bool := bit x.cfg 63
def Ring.sqSize (x : Ring) : Nat := 2 ^ fld x.cfg 12 8
def Ring.cqSize (x : Ring) : Nat := 2 ^ fld x.cfg 20 16
/-- The partition a ring acts on (R533, R539). -/
def ringPart (f : Nat) (x : Ring) : Nat := if f = 0 then fld x.cfg 47 44 else f - 1
/-- The VF of a partition (R533). -/
def vfOf (p : Nat) : Nat := p + 1
/-- Rings that a function has (R538). -/
def ringCount (f : Nat) : Nat := if f = 0 then 32 else 8

/-- A completion entry (R546). -/
def compEntry (r : Nat) (x : Ring) (tag status result : Nat) : List Byte :=
  leBytes 4 tag ++ leBytes 4 status ++ leBytes 4 result ++ leBytes 2 x.sqHead ++ [BitVec.ofNat 8 r, BitVec.ofNat 8 (b2n x.phase)]

/-- A ring's vector, if it names one that may be raised (R534, R539). -/
def ringVector (s : State) (f : Nat) (x : Ring) : State :=
  let v := fld x.cfg 43 38
  if 1 ≤ v ∧ v ≤ (if f = 0 then 32 else 8) then s.raiseVector f v else s

/-- Waiting completions written while the completion ring has room (R542). -/
def flushComps (f r : Nat) : Nat → State → State
  | 0, s => s
  | fuel + 1, s =>
    let x := s.ring f r
    match x.comps with
    | [] => s
    | c :: t =>
      if (x.cqTail + 1) % x.cqSize = x.cqHead then s
      else
        let s := { s with hostMem := s.hostMem.write (x.cqBase.toNat + 16 * x.cqTail) (compEntry r x c.1 c.2.1 c.2.2.1) }
        let next := (x.cqTail + 1) % x.cqSize
        let s := s.updRing f r (fun x => { x with comps := t, cqTail := next, phase := if next = 0 then !x.phase else x.phase })
        flushComps f r fuel (if c.2.2.2 then ringVector s f x else s)

/-- A completion for an entry (R542, R546): TAG, and IRQ of FLAGS. -/
def complete (s : State) (f r : Nat) (e : SqEntry) (status result : Nat) : State :=
  let s := s.updRing f r (fun x => { x with comps := x.comps ++ [(e.tag.toNat, status, result, bit e.flags 1)] })
  flushComps f r (s.ring f r).comps.length s

/-- Started entries of a partition's rings that g gives a status and result complete and leave (R544). -/
def completeWhere (s : State) (p : Nat) (g : SqEntry → Option (Nat × Nat)) : State :=
  s.hem.fns.foldl (fun s fx =>
    fx.2.rings.foldl (fun s rx =>
      if ringPart fx.1 rx.2 ≠ p then s
      else
        let s1 := s.updRing fx.1 rx.1 (fun x => { x with started := x.started.filter (fun e => (g e.1).isNone) })
        rx.2.started.foldl (fun s e => match g e.1 with | some (st, res) => complete s fx.1 rx.1 e.1 st res | none => s) s1) s) s

/-- JOB_STATUS_p (R552). -/
def jobWord (s : State) (p : Nat) : U64 :=
  let x := s.part p
  mkWord 64 [(60, x.jobState), (56, if x.jobState = 4 ∨ x.jobState = 6 then x.reason % 16 else 0), (32, x.stepsSinceStart % 2 ^ 24),
    (0, Table.get 0 s.io.watermark p % 2 ^ 32)]

/-- The status mirrors take a changed job status word (R555), and a change of STATE raises its vectors (R534). -/
def mirrorJob (s : State) (p : Nat) (stateChanged : Bool) : State :=
  [0, vfOf p].foldl (fun s f =>
    let x := s.fn f
    if f ≠ 0 ∧ !x.enabled then s
    else
      let at' := x.statusMirror.toNat + (if f = 0 then 8 * p else 0)
      let s := if x.statusMirror = 0 then s else { s with hostMem := s.hostMem.write at' (leBytes 8 (jobWord s p).toNat) }
      if stateChanged then s.raiseVector f (if f = 0 then 33 else 9) else s) s

/-- STATE of a job status word as its partition's state gives it (R553). -/
def jobStateOf (x : Partition) (st : PartState) : Nat :=
  match st with
  | .empty => x.jobState
  | .loading => 1
  | .armed => 2
  | .running => 3
  | .paused => if x.jobDone then 5 else 4
  | .draining => if x.jobDone then 5 else 7
  | .resetting => if x.jobDone then 5 else 7
  | .faulted => 6

/-- SAFE entered by request (R490, R514, R515): no partition is defined any more. -/
def enterSafe (s : State) : State :=
  let clear (c : ConfigSet) : ConfigSet := (List.range 16).foldl (fun c p => c.updPart p (fun x => { x with clusters := 0 })) c
  ({ s with stw := { s.stw with mstate := .safe, safeWanted := false } }).updDict (fun d => { d with active := clear d.active, shadow := clear d.shadow, staged := [] })

/-- READY and RUNNING follow whether a partition has left EMPTY, and a requested SAFE whether every one is EMPTY (R515). -/
def moduleFollows (s : State) : State :=
  let busy := (List.range 16).any (fun p => (s.part p).state != .empty)
  if s.stw.safeWanted && !busy && s.stw.mstate != .updating then enterSafe s
  else
    let m := match s.stw.mstate with | .ready => if busy then .running else .ready | .running => if busy then .running else .ready | m => m
    { s with stw := { s.stw with mstate := m } }

/-- The 16-byte header of a response (R500, R502). -/
def respHead (op flags seq index sub len : Nat) : List Byte :=
  [0x01, BitVec.ofNat 8 op] ++ leBytes 2 flags ++ leBytes 4 seq ++ leBytes 2 index ++ [BitVec.ofNat 8 sub, 0, 0, 0] ++ leBytes 2 len

/-- A response leaves for its requester: a datagram on a segment, or the mailbox of a function with vector 0 (R498, R504). -/
def deliver (s : State) (who : Requester) (seq : Nat) (resp : List Byte) : State :=
  match who with
  | .segment .. => s.updDict (fun d => { d with replies := d.replies ++ [(who, resp)] })
  | .function f =>
    let s := s.updDict (fun d => { d with queue := d.queue.filter (· != f) })
    (s.updFn f (fun x => { x with mbxResp := resp, mbxStatus := mkWord 64 [(63, 1), (61, fld x.mbxStatus 61 61), (0, seq % 2 ^ 32)] })).raiseVector f 0

/-- The last 8 responses of each of the 64 requesters served last (R503). -/
def trimStore (l : List (Requester × Nat × List Byte)) : List (Requester × Nat × List Byte) :=
  let who := ((l.reverse.map (·.1)).eraseDups).take 64
  (l.reverse.foldl (fun (r : List (Requester × Nat × List Byte)) e =>
    if who.contains e.1 && decide ((r.filter (fun x => x.1 == e.1)).length < 8) then e :: r else r) [])

/-- A response sent and kept for its retries (R502, R503). -/
def respond (s : State) (who : Requester) (seq : Nat) (resp : List Byte) : State :=
  deliver (s.updDict (fun d => { d with store := trimStore (d.store ++ [(who, seq, resp)]) })) who seq resp

/-- EXECUTE requests whose action has now completed are answered (R500). -/
def answerAwaits (s : State) (part code : Nat) : State :=
  let due (a : Await) : Bool := a.part == part && (a.want.isEmpty || a.want.contains code)
  let now := s.stw.d.awaiting.filter due
  let s := s.updDict (fun d => { d with awaiting := d.awaiting.filter (fun a => !due a) })
  now.foldl (fun s a => respond s a.who a.seq (respHead 5 1 a.seq a.index a.sub 0)) s

/-- A partition enters a state (R516 to R518): its reason, job status word and the module state follow, STEPWAIT entries of one that leaves
RUNNING and IMAGE entries of one that leaves LOADING complete (R544), EXECUTE requests that waited for it are answered (R500), and the journal
takes it (R434). -/
def setPart (s : State) (p : Nat) (st : PartState) (reason : Option Nat) : State :=
  let x := s.part p
  let j := jobStateOf x st
  let s := s.updPart p (fun x => { x with state := st, reason := reason.getD x.reason, jobState := j })
  let s := if x.state = .running ∧ st ≠ .running then completeWhere s p (fun e => if e.op = 0x07 then some (0, x.committed.toNat) else none) else s
  let s := if x.state = .loading ∧ st ≠ .loading then completeWhere s p (fun e => if e.op = 0x05 then some (0, 0) else none) else s
  let s := answerAwaits (mirrorJob (moduleFollows s) p (j != x.jobState)) p st.code
  (if s.stw.mstate = .safe then answerAwaits s 18 0 else s).journalled

end Sys2Proof.Machine
end

