-- ==== Sys2Proof/Machine/HostIo.lean ====
section
/-! DEFINITION. The host's channel ends: input records, the output SRAM ring, the output ring in host memory and the watermark
(R236, R541, R547 to R551, R573). -/

namespace Sys2Proof.Machine
open Sys2Proof

/-- Steps committed of a partition: the number of the next step (R528 STEP_COMMITTED). -/
def Partition.next (x : Partition) : Nat := (x.committed + 1).toNat

def hostKey (p e : Nat) : Nat := 16 * p + e
def State.hostIn (s : State) (k : Nat) : Ep := Table.get {} s.io.ins k
def State.updIo (s : State) (f : HostIo → HostIo) : State := { s with io := f s.io }
def State.setHostIn (s : State) (k : Nat) (e : Ep) : State := s.updIo (fun x => { x with ins := Table.put x.ins k e })
def State.hostOut (s : State) (p : Nat) : Ep := Table.get {} s.io.outs p
def State.setHostOut (s : State) (p : Nat) (e : Ep) : State := s.updIo (fun x => { x with outs := Table.put x.outs p e })
def HostIo.heldOf (x : HostIo) (p : Nat) : List HeldRec := Table.get [] x.held p
def HostIo.off (x : HostIo) (p : Nat) : Nat := Table.get 0 x.offset p
def HostIo.mark (x : HostIo) (p : Nat) : Nat := Table.get 0 x.watermark p

/-- The sending descriptor of a host input endpoint: that of its receiver, turned round (R176, R177, R547). -/
def hostInDesc (n : NodeId) (ep : Nat) (d : U128) : U128 :=
  mkWord 128 [(120, nx n), (112, ny n), (104, ep), (102, inMode d), (83, inCtag d), (75, inMaxrec d), (62, inSize d)]
/-- Host input endpoints of a region's running configuration: (host endpoint, node, endpoint, descriptor). -/
def hostFed (s : State) (p : Nat) : List (Nat × NodeId × Nat × U128) :=
  (s.region p).flatMap (fun n => ((s.node n).ins.filter (fun x => inMode x.2.desc != 0 && fld x.2.desc 127 120 == 0xFF)).map
    (fun x => (fld x.2.desc 111 104 % 16, n, x.1, x.2.desc)))
/-- The node endpoint that feeds the host output ring of a partition (R548). -/
def outProducer (s : State) (p : Nat) : Option (NodeId × Nat) :=
  (s.region p).findSome? (fun n => (List.find? (fun (x : Nat × Ep) => outMode x.2.desc != 0 && fld x.2.desc 127 120 == 0xFF) (s.node n).outs).map (fun x => (n, x.1)))

/-- A partition with a host endpoint (R561, R674). -/
def hostEnds (s : State) (p : Nat) : Bool := !(hostFed s p).isEmpty || (outProducer s p).isSome
/-- The fabric manager restores the host port maps over the ports that are UP, while no partition with a host endpoint runs, p apart (R674). -/
def restoreHostMap (s : State) (p : Nat) : State :=
  if (List.range 16).any (fun q => q != p && (s.part q).state == .running && hostEnds s q) then s
  else
    let want (h base : Nat) : U64 := (List.range 8).foldl (fun m k => if (hemUp s h).contains k then setFld m (base + 3 * k + 2) (base + 3 * k) k else m) (s.router 0).hostMap
    let s := if want 3 0 = (s.router 0).hostMap then s else remapHost s 3
    if want 10 32 = (s.router 0).hostMap then s else remapHost s 10

/-- The host's sending ends follow their receivers' descriptors (R239, R243): ends that only the next configuration enables are armed. -/
def refreshHost (s : State) (p : Nat) : State :=
  (hostFed s p).foldl (fun s f =>
    let k := hostKey p f.1
    let d := hostInDesc f.2.1 f.2.2.1 f.2.2.2
    let o := s.hostIn k
    s.setHostIn k (if outMode o.desc = 0 then armedOut d else { o with desc := d, blocked := false })) s

/-- Host ends armed with their partition (R183, R547, R548): rings empty, nothing queued. -/
def hostArm (s : State) (p : Nat) : State :=
  let s := s.updIo (fun x => { x with
    ins := x.ins.filter (fun e => e.1 / 16 != p)
    queue := x.queue.filter (fun e => e.1 / 16 != p)
    outs := Table.put x.outs p { desc := mkWord 128 [(102, 1), (63, 64)] }
    held := Table.put x.held p []
    stepEnds := Table.put x.stepEnds p []
    since := Table.put x.since p []
    offset := Table.put x.offset p 0
    watermark := Table.put x.watermark p 0 })
  (hostFed s p).foldl (fun s f => s.setHostIn (hostKey p f.1) (armedOut (hostInDesc f.2.1 f.2.2.1 f.2.2.2))) s

/-- A record put into the mesh by the active hem for a node (R541). -/
def hemInject (s : State) (n : NodeId) (ty p : Nat) (pay : U128) (data : List Byte) : State :=
  let d := hostDest s n s.stw.hostB
  inject s d.at' (mkRoute d.at' ⟨n, 0⟩ {} ty 3 p (flitsOf data.length)) pay data

/-- A host record sent, its credit at hand (R184, R185, R236). None: it waits. -/
def sendHost (s : State) (p e : Nat) (r : HostRec) : Option State :=
  let k := hostKey p e
  let o := s.hostIn k
  let rec' : OutRec := { kind := if r.token = 0 then 0 else 1, token := r.token, tokval := r.tokval, data := r.data }
  if o.broken || outMode o.desc == 0 || !creditFor o rec' then none
  else
    let n := nodeAt (fld o.desc 127 120) (fld o.desc 119 112)
    let hdr := mkHdr o.seq.toNat e 0xFF 0xFF (outCtag o.desc) rec'
    let size := 4096 * outSize o.desc
    let sz := recBytes r.data.length
    let skip := decide (size - o.ptr < sz)
    let s := if skip then hemInject s n tyRecord p (setFld (setFld (setFld hdr 87 68 0) 67 66 2) 63 29 0) [] else s
    let ptr := ringNext size o.ptr sz
    let s := s.setHostIn k { o with
      credit := o.credit - ringNeed size o.ptr sz, ptr := ptr, seq := o.seq + 1, msgs := satAdd o.msgs 1
      bytes := satAdd o.bytes r.data.length, skips := if skip then satAdd o.skips 1 else o.skips
      marks := o.marks ++ [(r.step, ptr, (o.seq + 1).toNat)] }
    some (hemInject s n tyRecord p hdr r.data)

/-- Queued records of a host input endpoint sent while credit allows (R545, R547). -/
def pumpHost (p e : Nat) : Nat → State → State
  | 0, s => s
  | fuel + 1, s =>
    match Table.get [] s.io.queue (hostKey p e) with
    | [] => s
    | r :: t =>
      match sendHost s p e r with
      | some s => pumpHost p e fuel (s.updIo (fun x => { x with queue := Table.put x.queue (hostKey p e) t }))
      | none => s
/-- A record queued on a host input endpoint, and what credit allows sent. -/
def queueHost (s : State) (p e : Nat) (r : HostRec) : State :=
  let q := Table.get [] s.io.queue (hostKey p e) ++ [r]
  pumpHost p e q.length (s.updIo (fun x => { x with queue := Table.put x.queue (hostKey p e) q }))

/-- SEAM on a host input endpoint, once the seam order is out (R241, log 40); one that lacks credit waits, marked blocked. What follows the SEAM
carries the next tag (R238). -/
def hostSeam (s : State) (p e : Nat) : State :=
  match sendHost s p e ⟨(s.part p).next, 4, 0, []⟩ with
  | some s =>
    let o := s.hostIn (hostKey p e)
    s.setHostIn (hostKey p e) { o with blocked := false, desc := setFld o.desc 84 83 ((outCtag o.desc + 1) % 4) }
  | none => s.setHostIn (hostKey p e) { s.hostIn (hostKey p e) with blocked := true }

/-- A credit packet reaches the hem (R188). -/
def creditAtHem (s : State) (p : Packet) : State :=
  let pt := rtOwner p.route
  let e := fld p.pay 127 120
  let k := hostKey pt e
  let o := s.hostIn k
  if outMode o.desc = 0 then s
  else
    let s := s.setHostIn k { o with credit := o.credit + 64 * fld p.pay 111 92 }
    let s := pumpHost pt e (Table.get [] s.io.queue k).length s
    if (s.hostIn k).blocked then hostSeam s pt e else s

/-- The credit of drained output bytes returned at once (R188, log 41). -/
def outCredit (s : State) (p bytes : Nat) : State :=
  match outProducer s p with
  | none => s
  | some (n, e) => if bytes = 0 then s else hemInject s n tyCredit p (mkWord 128 [(120, e), (112, 0), (92, bytes / 64)]) []

/-- Bytes that a held record takes in the output: its ring image (R548). -/
def HeldRec.image (h : HeldRec) : List Byte := if rhKind h.hdr = 2 then [] else ringImage h.hdr h.data

/-- The output offset after everything the hem holds. -/
def outEnd (s : State) (p : Nat) : Nat := (s.io.heldOf p).foldl (fun a h => a + h.image.length / 64) (s.io.off p)

/-- A RECORD packet reaches the hem's output ring (R181, R186, R548, R554). A wrong SEQ breaks the channel; the steward is told (R198). -/
def recordAtHem (s : State) (k : Packet) : State :=
  let p := rtOwner k.route
  let e := s.hostOut p
  let h := k.pay
  match outProducer s p with
  | none => s
  | some (n, ep) =>
    if rhX h ≠ nx n ∨ rhY h ≠ ny n ∨ rhEp h ≠ ep ∨ e.broken then s
    else if rhSeq h ≠ e.seq.toNat then
      (s.setHostOut p { e with broken := true }).note (s.eventFor 1 0x18 p) false n false
    else
      let data := k.data.take (rhLen h)
      let size := 0x40000
      let sz := recBytes data.length
      let skip := rhKind h == 2
      let it : HeldRec := ⟨storedHdr h, data, if skip then size - e.wptr else sz⟩
      let e := { e with
        wptr := if skip then 0 else if e.wptr + sz = size then 0 else e.wptr + sz
        seq := if skip then e.seq else e.seq + 1
        msgs := if skip then e.msgs else satAdd e.msgs 1
        bytes := satAdd e.bytes data.length
        tokens := if rhKind h = 1 then satAdd e.tokens 1 else e.tokens
        skips := if skip then satAdd e.skips 1 else e.skips }
      let s := (s.setHostOut p e).updIo (fun x => { x with held := Table.put x.held p (x.heldOf p ++ [it]) })
      if skip then s
      else
        let o := outEnd s p
        let s := s.updIo (fun x => { x with
          stepEnds := Table.put x.stepEnds p (Table.get [] x.stepEnds p ++ [(e.seq.toNat, o)])
          since := Table.put x.since p (Table.get [] x.since p ++ it.image) })
        if rhKind h = 1 ∧ rhToken h = 3 ∧ rhTokval h = 0xFFFE then s.updPart p (fun x => { x with jobEnd := some o }) else s

/-- The function whose output configuration serves a partition (R539). -/
def outFn (s : State) (p : Nat) : Nat := if (s.fn (vfOf p)).enabled then vfOf p else 0

/-- Key of a protected partition's output (R572, R573). -/
def outputKey (x : Keys) : List Byte :=
  hkdf384 x.deliveryId x.master ([0x4F, 0x55, 0x54, 0x50, 0x55, 0x54] ++ leBytes 4 x.starts ++ leBytes 4 x.rewinds) 32
/-- An output record as it is written at offset o: sealed for a protected partition (R551, R573). -/
def sealOutput (s : State) (p o : Nat) (img : List Byte) : List Byte :=
  if (s.cfg p).prot then
    let x := (s.part p).keys
    let r := gcmSeal (outputKey x) (leBytes 8 o ++ [0, 0, 0, 0]) (img.take 16) (img.drop 64)
    img.take 16 ++ r.2 ++ leBytes 4 x.rewinds ++ (img.drop 36).take 28 ++ r.1
  else img

/-- Host memory written in 64-byte units round a ring of 2^k bytes (R548). -/
def writeRound (m : Memory) (base k o : Nat) (bs : List Byte) : Memory :=
  (chunks 64 (bs.length / 64) bs).zipIdx.foldl (fun m x => m.write (base + 64 * (o + x.2) % 2 ^ k) x.1) m

/-- OUTPUT_RECORD_WRITE (R548, R549, R551): the oldest held record goes to the host output ring when it fits; a skip marker only frees its
tail (R187). -/
def execOutputRecordWrite (p : Nat) (s : State) : Res :=
  if 16 ≤ p then .fault .noSuchUnit
  else
    .next (
      match s.io.heldOf p with
      | [] => s
      | h :: t =>
        let f := s.fn (outFn s p)
        let cfg := Table.get 0 f.outCfg p
        let k := fld cfg 5 0
        let o := s.io.off p
        let u := h.image.length / 64
        let pop (s : State) : State := outCredit (s.updIo (fun x => { x with held := Table.put x.held p t, offset := Table.put x.offset p (o + u) })) p h.give
        if u = 0 then pop s
        else if !bit cfg 63 || decide (Table.get 0 f.outRead p + 2 ^ k / 64 < o + u) then s
        else pop { s with hostMem := writeRound s.hostMem (Table.get 0 f.outBase p).toNat k o (sealOutput s p o h.image) })

/-- The output offset at which a step that ended with this SEQ on the producing endpoint ended, once the hem holds all of it (R550). -/
def endOffset (s : State) (p seq : Nat) : Option Nat :=
  if (s.hostOut p).committed.2 = seq then some (s.io.mark p)
  else ((Table.get [] s.io.stepEnds p).find? (fun x => x.1 == seq)).map (·.2)

/-- The watermark moves to the end of a committed step (R550). -/
def advanceMark (s : State) (p seq o : Nat) : State :=
  let d := o - s.io.mark p
  let e := s.hostOut p
  (s.setHostOut p { e with committed := (0, seq) }).updIo (fun x => { x with
    watermark := Table.put x.watermark p o
    since := Table.put x.since p ((Table.get [] x.since p).drop (64 * d))
    stepEnds := Table.put x.stepEnds p ((Table.get [] x.stepEnds p).filter (fun y => decide (o < y.2))) })

/-- Records kept up to an output offset: those that end at or below it. -/
def keepHeld (upTo : Nat) : Nat → List HeldRec → List HeldRec
  | _, [] => []
  | o, h :: t => let o := o + h.image.length / 64; if o ≤ upTo ∧ h.image ≠ [] then { h with give := 0 } :: keepHeld upTo o t else []

/-- The output set back to a committed end with its ring re-armed at a write offset and SEQ (R236, R550, R573). -/
def rewindOutput (s : State) (p upTo ptr seq : Nat) : State :=
  let s := s.updPart p (fun x => { x with jobEnd := match x.jobEnd with | some o => if o ≤ upTo then some o else none | none => none
                                          keys := { x.keys with rewinds := x.keys.rewinds + 1 } })
  let since0 := s.io.mark p
  let e := s.hostOut p
  (s.setHostOut p { e with ptr := ptr, wptr := ptr, seq := BitVec.ofNat 16 seq, broken := false }).updIo (fun x => { x with
    held := Table.put x.held p (keepHeld upTo (x.off p) (x.heldOf p))
    offset := Table.put x.offset p (min (x.off p) upTo)
    since := Table.put x.since p ((Table.get [] x.since p).take (64 * (upTo - since0)))
    stepEnds := Table.put x.stepEnds p ((Table.get [] x.stepEnds p).filter (fun y => decide (y.2 ≤ upTo))) })

/-- INPUT entries of a partition's rings that have started, in ring order (R545): function, ring, entry, data. -/
def inputsOf (s : State) (p : Nat) : List (SqEntry × List Byte) :=
  s.hem.fns.flatMap (fun fx => fx.2.rings.flatMap (fun rx => if ringPart fx.1 rx.2 = p then rx.2.started.filter (fun e => e.1.op == 0x01) else []))
/-- The record an INPUT entry sends (R544, R547). -/
def inputRec (e : SqEntry × List Byte) : HostRec := ⟨e.1.step.toNat, fld e.1.arg 11 8, fld e.1.arg 31 16, e.2⟩
def inputEp (e : SqEntry) : Nat := fld e.arg 3 0

/-- Mirrored INPUT records of a former shadow that its partition has yet to take: those of later steps whose hem stream's END arrived (R624). -/
def mirroredInputs (s : State) (p c : Nat) : List MirrorInput :=
  s.twin.inputs.filter (fun i => i.part == p && decide (c ≤ i.step) && (s.part p).mir.durable.any (fun d => d.1 % 256 == 255 && d.2 == i.step))

/-- Every INPUT of a step from c on is sent again, in ring order (R547), on rings re-armed at their committed ends (R236); records mirrored from a
lost primary come first (R624). -/
def resendInputs (s : State) (p c : Nat) : State :=
  let s := s.updIo (fun x => { x with
    queue := x.queue.filter (fun e => e.1 / 16 != p)
    ins := Table.mapVals (fun k e => if k / 16 = p then
      { e with ptr := e.committed.1, seq := BitVec.ofNat 16 e.committed.2, credit := 4096 * outSize e.desc, broken := false, blocked := false
               marks := e.marks.filter (fun m => decide (m.1 < c)) } else e) x.ins })
  let s := (mirroredInputs s p c).foldl (fun s i => queueHost s p i.ep ⟨i.step, i.token, i.tokval, i.data⟩) s
  ((inputsOf s p).filter (fun e => decide (c ≤ e.1.step.toNat))).foldl (fun s e => queueHost s p (inputEp e.1) (inputRec e)) s

/-- The hem takes a committed step: its input rings' committed ends are those after the last record of a step so far (R236). -/
def commitInputs (s : State) (p t : Nat) : State :=
  s.updIo (fun x => { x with ins := Table.mapVals (fun k e => if k / 16 = p then
    { e with committed := ((e.marks.filter (fun m => decide (m.1 ≤ t))).getLast?).elim e.committed (·.2)
             marks := e.marks.filter (fun m => decide (t < m.1)) } else e) x.ins })

end Sys2Proof.Machine
end

