-- ==== Sys2Proof/Machine/Commit.lean ====
section
/-! DEFINITION. The end of a step, its commit, and its replay (R229 to R243, R277, R300, R310, R322, R330 to R334, R403 to R406, R550). -/

namespace Sys2Proof.Machine
open Sys2Proof

/-- LOGICAL of a slot (R213). -/
def Pat.logical (p : Pat) (k : Nat) : Nat := p.hdr k 4 4

/-- A key of a digest leaf: KIND and fifteen bytes, zero-padded (R330). -/
def leafKey (kind : Nat) (k : List Byte) : List Byte := (BitVec.ofNat 8 kind :: k ++ List.replicate 15 0).take 16

/-- Runs of tokens merged: ascending, disjoint and not adjacent (R330). -/
def mergeRun : List (Nat × Nat) → Nat × Nat → List (Nat × Nat)
  | [], r => [r]
  | (a, n) :: t, (b, m) =>
    if b + m < a then (b, m) :: (a, n) :: t
    else if a + n < b then (a, n) :: mergeRun t (b, m)
    else mergeRun t (min a b, max (a + n) (b + m) - min a b)

/-- The digest leaves of an L node: one for each plane appended to in the step, with its bytes as they stand (R330). -/
def appendLeaves (s : State) (l : Nat) : List (List Byte × List Byte) :=
  let x := s.ln l
  let planes := (x.appended.map (fun a => (a.1, a.2.1))).eraseDups
  planes.map (fun ep =>
    let b := x.bobbin ep.1
    let runs := ((x.appended.filter (fun a => a.1 == ep.1 && a.2.1 == ep.2)).map (fun a => (a.2.2.1, a.2.2.2))).foldl mergeRun []
    let bytes := runs.flatMap (fun r =>
      leBytes 4 r.1 ++ leBytes 4 r.2 ++ (pagesOf b ep.2 r.1 r.2).flatMap (fun pg => (readTokens s l ep.1 pg none).data))
    (leafKey 0x01 (leBytes 4 b.session.toNat ++ leBytes 2 ep.2), sha384 bytes))
/-- The digest leaves of a node's taps (R330). -/
def tapLeaves (nd : Node) : List (List Byte × List Byte) :=
  nd.pat.taps.map (fun e => (leafKey 0x03 (leBytes 4 (nd.pat.logical nd.pat.home) ++ [BitVec.ofNat 8 e]), sha384 (nd.outEp e).tap))

/-- A step is sampled under SILENT (R332), and its digest is computed (R331). -/
def sampled (s : State) (p t : Nat) : Bool :=
  let c := s.cfg p
  c.faultModel == 1 && c.mirror && (t + 1) % max 1 c.sampleInterval == 0
def digested (s : State) (p t : Nat) : Bool := sampled s p t || (s.cfg p).digestAll

/-- Leaves of a node's step kept for the digest. -/
def addLeaves (s : State) (n : NodeId) (p t : Nat) : State :=
  if !digested s p t then s
  else
    let ls := if kindOf n = .l then appendLeaves s (lIndex n) else tapLeaves (s.node n)
    s.updPart p (fun x => { x with mir := { x.mir with leaves := x.mir.leaves ++ ls.map (fun l => (t, l.1, l.2)) } })

/-- Lexicographic order of keys. -/
def keyLess : List Byte → List Byte → Bool
  | [], [] => false
  | [], _ => true
  | _, [] => false
  | a :: s, b :: t => decide (a.toNat < b.toNat) || (a == b && keyLess s t)
/-- A leaf put into a list sorted by key. -/
def putLeaf (l : List Byte × List Byte) : List (List Byte × List Byte) → List (List Byte × List Byte)
  | [] => [l]
  | x :: t => if keyLess l.1 x.1 then l :: x :: t else x :: putLeaf l t

/-- The step digest (R330): SHA-384 over the leaves sorted by key, that of the job output with them. -/
def stepDigest (s : State) (p t outUnits : Nat) : List Byte :=
  let out := (leafKey 0x02 [], sha384 ((Table.get [] s.io.since p).take (64 * outUnits)))
  let ls := (((s.part p).mir.leaves.filter (fun l => l.1 == t)).map (·.2) ++ [out]).foldl (fun a l => putLeaf l a) []
  sha384 (ls.flatMap (fun l => l.1 ++ l.2))

/-- Write offset of an output once its let-out records are sent (R236, R248). -/
def Ep.finalPtr (o : Ep) : Nat := o.loQ.foldl (fun w r => ringNext (4096 * outSize o.desc) w (recBytes (rhLen r.hdr))) o.ptr

/-- Offsets and SEQs recorded at a MARK (R236); a receiver's SEQ counts what it has released, as its sender's does. -/
def recordMarks (nd : Node) : Node :=
  let t := nd.pat.current.toNat
  { nd with
    ins := Table.mapVals (fun _ e => { e with marks := e.marks ++ [(t, e.ptr, (e.seq.toNat + 65536 - (e.recs.countP (·.shown)) % 65536) % 65536)] }) nd.ins
    outs := Table.mapVals (fun _ e => { e with marks := e.marks ++ [(t, e.finalPtr, e.seq.toNat)] }) nd.outs }

/-- A node's three counts of R322. -/
def timingCounts (p : Pad) : Nat × Nat × Nat := (p.recvanyCount.toNat, p.rbfUnchecked.toNat, p.obdUnchecked.toNat)

/-- A STEP packet of a node (R363). -/
def sendStep (s : State) (n dst : NodeId) (sub p step : Nat) : State := sendPacket s n ⟨dst, 0⟩ tyStep 0 p (stepPay sub p step) []

/-- The TIMING report of R322, when a count has risen. -/
def timingReport (s : State) (n : NodeId) (p : Nat) : State :=
  let nd := s.node n
  let c := timingCounts nd.pad
  let s := if c = nd.pat.timingAt then s else sendStep s n s.stewardAt 3 p nd.pat.current.toNat
  s.updNode n (fun d => { d with pat := { d.pat with timingAt := c } })

/-- The step knot operation (R230): ARRIVE, or ADD of a veto. Its ticket is one no instruction uses. -/
def postStep (s : State) (n : NodeId) (p : Nat) : State :=
  let nd := s.node n
  let ks := (s.part p).pl.stepKnots
  let knot := if nd.pat.current.toNat % 2 = 0 then ks.1 else ks.2
  if nd.pat.veto then sendKnot s n 2 knot 255 0x00010001 else sendKnot s n 1 knot 255 0

/-- A node switches configuration at this MARK (R241). -/
def seamReady (nd : Node) : Bool :=
  nd.pat.seamOrder && nd.pat.nextValid &&
    (nd.ins.filter (fun e => inMode e.2.desc != 0 && !e.2.nextOnly)).all (fun e => nd.pat.isSealed e.1)

/-- SEAM with the old tag on every output of the current configuration (R241). None: one lacks credit. -/
def sendSeams (s : State) (n : NodeId) : Option State :=
  (((s.node n).outs.filter (fun e => outMode e.2.desc != 0 && !e.2.nextOnly)).map (·.1)).foldl
    (fun (r : Option State) e => r.bind (fun s => trySend s n e { kind := 1, token := 4 })) (some s)

/-- Endpoints under a new configuration: one enabled in both keeps its state, one of the old alone goes (R239 to R241). -/
def retarget (es : Table Ep) (count : Nat) (desc : Nat → U128) (fresh : U128 → Ep) : Table Ep :=
  (List.range count).filterMap (fun e =>
    let d := desc e
    if fld d 103 102 = 0 then none
    else match Table.find? es e with
      | some x => some (e, { x with desc := d, nextOnly := false })
      | none => some (e, fresh d))

/-- Taps that an image's report gives a logical pattern (R330). -/
def tapsOf (img : Option Image) (logical : Nat) : List Nat :=
  match img with
  | none => []
  | some i => (i.report.taps.filter (fun t => t.1 == logical)).map (·.2)

/-- A node takes its loaded next configuration: home pattern, tag and endpoints; its old slots are freed (R239, R241). -/
def switchConfig (s : State) (n : NodeId) (p : Nat) (forced : Bool) : State :=
  let t := (s.node n).pat.current.toNat
  let img := (s.part p).pl.nextImage
  let s := s.updNode n (fun nd =>
    let tag := nd.pat.nextCtag
    let q := { nd.pat with loaded := nd.pat.loaded.filter (fun k => nd.pat.slotCtag k != nd.pat.ctag) }
    let h := homeSlot q tag
    { nd with
      ins := retarget nd.ins (epCount n) (cfgIn n q tag) armedIn
      outs := retarget nd.outs (epCount n) (cfgOut n q tag) armedOut
      pat := { q with home := h, ctag := tag, nextValid := false, seamOrder := false, sealed := 0, taps := tapsOf img (q.logical h) } })
  s.updPart p (fun x => { x with seam := x.seam.map (fun r => { r with switched := r.switched ++ [n], last := max r.last t, forced := r.forced || forced }) })

/-- What a node does as its MARK completes (R229 to R231, R236, R241, R322, R330, R619). None: a SEAM it must send lacks credit. -/
def endMark (s : State) (n : NodeId) : Option State :=
  let nd := s.node n
  let p := nd.part.getD 0
  let t := nd.pat.current.toNat
  let sw := seamReady nd
  match (if sw then sendSeams s n else some s) with
  | none => none
  | some s =>
    let s := nd.ins.foldl (fun s e => releaseReturned s n e.1) (consumed s n)
    let s := s.updNode n recordMarks
    let s := timingReport s n p
    let s := addLeaves s n p t
    let s := if kindOf n = .l then sendEnd s p (lnStream p (lIndex n)) t else s
    let s := postStep s n p
    let s := if sw then switchConfig s n p false else s
    some (s.updNode n (fun d => { d.latch.startStep n (t + 1) with
      events := d.events + 1
      core := { (d.latch.startStep n (t + 1)).core with patrolDue := false } }))

/-- A MARK may complete: the step before this one has committed here (R232). -/
def Node.mayMark (nd : Node) : Bool := nd.pat.committed + 1 == nd.pat.current
/-- A node that has ended its step waits for the commit of the step before (R232, R258 STATE 4). -/
def Node.waitMark (nd : Node) : Node := { nd with pat := { nd.pat with phase := .waitCommit } }

/-- A knot of the module (R199, R200). -/
def State.knot (s : State) (k : Nat) : Knot := Table.get {} (s.ln (k / 256)).knots (k % 256)
def State.setKnot (s : State) (k : Nat) (x : Knot) : State := s.updLn (k / 256) (fun l => { l with knots := Table.put l.knots (k % 256) x })

/-- The partition's step knot of a step. -/
def stepKnot (s : State) (p t : Nat) : Nat := if t % 2 = 0 then (s.part p).pl.stepKnots.1 else (s.part p).pl.stepKnots.2

/-- Streams of a region whose DURABLE a mirrored commit awaits: its L nodes' (R621). -/
def durableStreams (s : State) (p : Nat) : List Nat := ((s.region p).filter (fun n => kindOf n == .l)).map (fun n => lnStream p (lIndex n))

/-- A data-parallel replica, and its exchange steps (R349, R624). -/
def replica (s : State) (p : Nat) : Bool := let c := s.cfg p; c.mirrorPeer != 0xFF && !c.mirror && !c.shadow
def exchangeStep (s : State) (p t : Nat) : Bool := replica s p && (t + 1) % max 1 (s.cfg p).exchange == 0

/-- The covers a multicast of a partition's placement uses (R377). -/
def coverOf (s : State) (p : Nat) : List Rect :=
  match (s.part p).pl.image with
  | none => []
  | some i => match i.placements[(s.part p).pl.placement]? with | some x => x.cover | none => []

/-- Step t commits (R234, R621): its knot is reset, STEP_COMMIT goes to the region and the steward, COMMIT to the twin. -/
def commitStep (s : State) (p t : Nat) : State :=
  let k := stepKnot s p t
  let home := (s.part p).pl.commitHome
  let s := s.setKnot k { s.knot k with count := 0, sat := false }
  let s := (coverOf s p).foldl (fun s rc => sendMulticast s home rc tyStep 0 p (stepPay 1 p t)) s
  let s := sendStep s home s.stewardAt 1 p t
  let s := if mirrored s p then sendOn s p fCommit (lnStream p (lIndex home)) t 0 [] else s
  s.updPart p (fun x => { x with mir := { x.mir with
    waiting := none, differed := none
    durable := x.mir.durable.filter (fun d => decide (t < d.2))
    leaves := x.mir.leaves.filter (fun l => decide (t < l.1))
    exchange := x.mir.exchange.filter (fun e => decide (t < e.1)) } })

/-- A SILENT event of this module orders the patrol of its V and F cores and the array diagnostic of its M cores (R431, R436 KIND 10). -/
def silentEvent (s : State) (p : Nat) : State :=
  let s := s.log (s.eventFor 10 0x00 p)
  let ns := (s.region p).filter (fun n => kindOf n == .v || kindOf n == .f || kindOf n == .m)
  let s := ns.foldl (fun s n => s.updNode n (fun d =>
    if kindOf n = .m then { d with mc := { d.mc with diagDue := some (true, true) } } else { d with core := { d.core with patrolDue := true } })) s
  s.updPart p (fun x => { x with tr := { x.tr with silentTests := ns } })

/-- A node stopped with its work in flight discarded (R404). -/
def Node.stopStep (nd : Node) : Node :=
  { nd with
    core := { nd.core with blocked := none, posted := [], retry := none }
    mc := { nd.mc with window := [], flights := [], drains := [], groups := [], planes := [], ftqUsed := 0, maskUsed := 0, shadow := false, loopWait := none }
    ln := { nd.ln with outbox := [] }
    pat := { nd.pat with phase := .stopped, held := false } }

/-- The region of a partition stopped, fenced nodes apart. -/
def stopRegion (s : State) (p : Nat) : State :=
  (s.region p).foldl (fun s n => s.updNode n (fun d => if d.fenced then d else d.stopStep)) s
/-- A partition stops in FAULTED (R108, R277, R334, R406, R425). -/
def failPart (s : State) (p reason : Nat) : State := restoreHostMap (setPart (stopRegion s p) p .faulted (some reason)) p
/-- A partition stops in PAUSED at its last committed step (R351, R432, R516, R554, R623). -/
def pausePart (s : State) (p reason : Nat) : State :=
  restoreHostMap (setPart ((stopRegion s p).updPart p (fun x => { x with pauseReq := none })) p .paused (some reason)) p

/-- The commit home reports a step that may not commit (R233). -/
def vetoStep (s : State) (p t : Nat) : State := s.updPart p (fun x => { x with tr := { x.tr with vetoed := some t } })

/-- SEQ of the host output endpoint at the end of a step: what its producer recorded (R236). -/
def outSeqAt (s : State) (p t : Nat) : Option Nat :=
  match outProducer s p with
  | none => none
  | some (n, e) =>
    let o := (s.node n).outEp e
    match o.marks.find? (fun m => m.1 == t) with
    | some m => some m.2.2
    | none => some o.committed.2

/-- Output units of step t, once the hem holds them all. -/
def stepOutput (s : State) (p t : Nat) : Option Nat :=
  match outSeqAt s p t with
  | none => some 0
  | some q => (endOffset s p q).map (fun o => o - s.io.mark p)

/-- The sampled cross-check of a step (R332 to R334): commits, waits, or orders a second execution. -/
def crossCheck (s : State) (p t : Nat) (ours : List Byte) : State :=
  let x := s.part p
  match List.find? (fun (d : Nat × List Byte) => d.1 == t) x.mir.twinDigests with
  | none => s
  | some (_, theirs) =>
    let s := s.updPart p (fun x => { x with mir := { x.mir with twinDigests := x.mir.twinDigests.filter (fun d => d.1 != t) } })
    match x.mir.differed with
    | some (u, a, b) =>
      if u = t then
        if ours = theirs then
          let s := s.updPart p (fun x => { x with rep := { x.rep with
            silentChecked := satAdd x.rep.silentChecked 1
            silentPrimary := if a ≠ ours then satAdd x.rep.silentPrimary 1 else x.rep.silentPrimary
            silentTwin := if b ≠ ours then satAdd x.rep.silentTwin 1 else x.rep.silentTwin } })
          let s := if a ≠ ours then silentEvent s p else s
          commitStep s p t
        else failPart s p 0x09
      else s
    | none =>
      if ours = theirs then
        commitStep (s.updPart p (fun x => { x with rep := { x.rep with silentChecked := satAdd x.rep.silentChecked 1 } })) p t
      else vetoStep (s.updPart p (fun x => { x with mir := { x.mir with differed := some (t, ours, theirs) } })) p t

/-- The commit home's decision on the step after the last committed one (R233, R332, R350, R351, R450). It is made again as each thing it
waits for arrives. -/
def commitDecision (s : State) (p : Nat) : State :=
  let x := s.part p
  let t := ((s.node x.pl.commitHome).pat.committed + 1).toNat
  let c := (s.knot (stepKnot s p t)).count
  if x.state ≠ .running ∨ x.tr.vetoed = some t ∨ fld c 15 0 ≠ (s.region p).length then s
  else if fld c 31 16 != 0 || suspectRuns x then vetoStep s p t
  else
    let s := s.updPart p (fun x => { x with mir := { x.mir with waiting := some t } })
    let s := if exchangeStep s p t && x.mir.exchanged != some t then
        (sendExchange s p t).updPart p (fun x => { x with mir := { x.mir with exchanged := some t } }) else s
    let paired := (s.cfg p).mirror && s.twin.state == twPaired
    if paired && !(durableStreams s p).all (fun k => x.mir.durable.contains (k, t)) then s
    else if exchangeStep s p t && !x.mir.durable.contains (exchangeStream p, t) then (if s.twin.state = twLost then pausePart s p 0x03 else s)
    else if !digested s p t then commitStep s p t
    else
      match stepOutput s p t with
      | none => s
      | some u =>
        let ours := stepDigest s p t u
        let s := s.updPart p (fun x => { x with mir := { x.mir with digests := x.mir.digests.filter (fun d => d.1 != t) ++ [(t, ours)] } })
        if !(sampled s p t && paired) then commitStep s p t
        else if x.rep.marks.contains t then
          commitStep (s.updPart p (fun x => { x with rep := { x.rep with silentSkipped := satAdd x.rep.silentSkipped 1 } })) p t
        else crossCheck s p t ours

/-- An L node's part of a commit (R295, R300, R310). -/
def commitLNode (s : State) (l t : Nat) : State :=
  let s := replaceSealed s l t
  (s.ln l).bobbins.foldl (fun s eb =>
    let e := eb.1
    let b := s.bobbin l e
    if b.state = 2 then freeBobbin s l e
    else
      let old := b.length
      let upTo := if t % 2 = 0 then b.end0 else b.end1
      let s := s.updBobbin l e (fun b => { b with length := max b.length upTo, end0 := if t % 2 = 0 then 0 else b.end0, end1 := if t % 2 = 0 then b.end1 else 0 })
      sealPages s l e t old) s

/-- STEP_COMMIT at a node of the region (R232, R234, R236). -/
def commitNode (s : State) (n : NodeId) (t : Nat) : State :=
  let nd := s.node n
  if nd.pat.committed + 1 ≠ BitVec.ofNat 32 t then s
  else
    let take (e : Ep) : Ep := { e with
      committed := (e.marks.find? (fun m => m.1 == t)).elim e.committed (·.2)
      marks := e.marks.filter (fun m => decide (t < m.1)) }
    let s := s.setNode n { nd with
      ins := Table.mapVals (fun _ e => take e) nd.ins
      outs := Table.mapVals (fun _ e => take e) nd.outs
      pat := { nd.pat with committed := BitVec.ofNat 32 t, phase := if nd.pat.phase = .waitCommit then .inStep else nd.pat.phase } }
    if kindOf n = .l then commitLNode s (lIndex n) t else s

/-- STEP_COMMIT at the steward, with the hem's part (R234, R236, R547, R550, R552, R554): none while the hem lacks a record of the step. -/
def commitSteward (s : State) (p t : Nat) : Option State :=
  let x := s.part p
  if x.next ≠ t then some s
  else
    let go (s : State) : State :=
      let s := commitInputs s p t
      let s := s.updPart p (fun x => { x with
        committed := BitVec.ofNat 32 t
        stepsSinceStart := x.stepsSinceStart + 1
        tr := { x.tr with replayCount := 0, replayNode := none, vetoed := none, hangBefore := none } })
      let s := completeWhere s p (fun e => if e.op = 0x01 ∧ e.step.toNat ≤ t then some (0, 0) else if e.op = 0x07 ∧ e.step.toNat ≤ t then some (0, t) else none)
      let s := sendEnd s p (hemStream p) t
      let s := mirrorJob s p false
      let x := s.part p
      match x.jobEnd with
      | some o =>
        if o ≤ s.io.mark p then pausePart (s.updPart p (fun x => { x with jobEnd := none, jobDone := true })) p 0x00
        else match x.pauseReq with | some r => pausePart s p r | none => s
      | none => match x.pauseReq with | some r => pausePart s p r | none => s
    match outSeqAt s p t with
    | none => some (go s)
    | some q => (endOffset s p q).map (fun o => go (advanceMark s p q o))

/-- STEP_COMMIT packets of a partition still on their way: their steps. -/
def commitsInFlight (s : State) (p : Nat) : List Nat :=
  ((s.flight.filter (fun k => isStepSub 1 k && rtOwner k.route == p)).map (fun k => fld k.pay 119 88)).foldl setIns []

/-- A step whose commit was decided before a stop stands: every node of the region takes it (R405, R460). -/
def settleCommits (s : State) (p : Nat) : State :=
  (commitsInFlight s p).foldl (fun s t => (s.region p).foldl (fun s n => commitNode s n t) s) s

/-- Frames of a partition's bobbin pages: (entry, page-list index) of the page that lies in a frame. -/
def pageInFrame (s : State) (l f : Nat) : Option (Nat × Nat) :=
  (s.ln l).bobbins.findSome? (fun eb =>
    if eb.2.state = 0 then none
    else ((List.range eb.2.listCap).find? (fun i => let x := ple s l eb.2 i; pleValid x && pleLin x && pleFrame x == f)).map (fun i => (eb.1, i)))

/-- One poisoned page restored before a replay (R277). The Bool is whether the partition may go on. -/
def restorePage (s : State) (p l f : Nat) : State × Bool :=
  let clear (s : State) : State := s.updLn l (fun x => { x with poison := setDel x.poison f, framesUsed := setIns x.framesUsed f })
  match pageInFrame s l f with
  | some (e, i) =>
    let b := s.bobbin l e
    let x := ple s l b i
    let away (s : State) : State := (setPle s l b i (setFld x 126 126 0)).updBobbin l e (fun b => { b with linPages := b.linPages - 1 })
    let twin (s : State) : State :=
      if b.mirrored && mirrored s p then
        let s := sendOn s p fFetch (lnStream p l) (s.part p).next (pageArg b.session i) []
        s.updPart p (fun x => { x with mir := { x.mir with restoring := x.mir.restoring ++ [(l, e, i)] } })
      else clear (loseBobbin s l e)
    if pleBolt x && !pleDirty x then
      let r := readBoltCopy s l b x
      if r.2.2 then (twin r.1, true)
      else
        match promotePage (away (clear s)) l e i with
        | some s => (s, true)
        | none => (clear (loseBobbin s l e), true)
    else (twin s, true)
  | none =>
    let x := s.ln l
    match x.sealedPages.find? (fun q => q.frame == f) with
    | some q => (clear (loseBobbin s l q.entry), true)
    | none => if x.frameFirst ≤ f ∧ f < x.frameFirst + x.frameCount then (clear s, true) else (s, false)

/-- Every poisoned page of a partition's L nodes restored, with cache lines that lost their data (R277). -/
def restorePoison (s : State) (p : Nat) : State × Bool :=
  ((s.cfg p).lnodes).foldl (fun (r : State × Bool) l =>
    let c := ((r.1.ln l).cache.filter (fun c => c.part == p && c.poison))
    let s := r.1.updLn l (fun x => { x with cache := x.cache.filter (fun c => !(c.part == p && c.poison && !c.dirty)) })
    let ok := r.2 && !c.any (·.dirty)
    (s.ln l).poison.foldl (fun (r : State × Bool) f => let q := restorePage r.1 p l f; (q.1, r.2 && q.2)) (s, ok)) (s, true)

/-- The committed end of the channel into an input endpoint: its sender's, where that is usable (R236). -/
def committedIn (s : State) (p : Nat) (e : Ep) : Nat × Nat :=
  if fld e.desc 127 120 = 0xFF then (s.hostIn (hostKey p (fld e.desc 111 104 % 16))).committed
  else
    let m := nodeAt (fld e.desc 127 120) (fld e.desc 119 112)
    if (s.node m).fenced then e.committed
    else match Table.find? (s.node m).outs (fld e.desc 111 104) with | some o => o.committed | none => e.committed

/-- A channel end re-armed at its committed offset and SEQ (R183, R198, R235, R236, R248). -/
def rearmIn (c : Nat × Nat) (e : Ep) : Ep :=
  { e with broken := false, blocked := false, ptr := c.1, wptr := c.1, credit := 0, seq := BitVec.ofNat 16 c.2, recs := [], returned := 0,
           creditWay := none, marks := [], committed := c }
def rearmOut (c : Nat × Nat) (e : Ep) : Ep :=
  { e with broken := false, blocked := false, letout := false, ptr := c.1, seq := BitVec.ofNat 16 c.2, loQ := [], loW := 0, loUsed := 0, marks := [], tap := []
           committed := c, credit := if outMode e.desc = 2 then 64 else 4096 * outSize e.desc }

/-- FILLED cleared on the slots of a node's STEP regions (R235). -/
def clearStepSlots (n : NodeId) (nd : Node) : Node :=
  let ks := (cfgSlots nd.pat nd.pat.ctag).flatMap (fun k => ((regionRecs nd.pat k).filter (fun r => r.use == 2)).flatMap (regionSlots n))
  { nd with pad := nd.pad.unfill ks }

/-- Undelivered records of the old tag that a forced switch discards (R243). -/
def oldRecords (nd : Node) : Nat :=
  nd.ins.foldl (fun a e => a + ((e.2.recs.drop e.2.returned).countP (fun r => r.shown && rhCtag r.hdr == nd.pat.ctag && !(rhKind r.hdr == 1 && rhToken r.hdr == 4)))) 0

/-- Every node that has not switched does so at once (R243). -/
def forceSwitch (s : State) (p : Nat) : State :=
  refreshHost ((s.region p).foldl (fun s n =>
    let nd := s.node n
    if !nd.pat.nextValid then s
    else
      let s := s.updNode n (fun d => { d with pat := { d.pat with seamDiscards := satAdd d.pat.seamDiscards (oldRecords nd) } })
      switchConfig s n p true) s) p

/-- Items 1 to 5 of R235: the region stops, its packets, waiting WAITs and its channels' contents go (log 45), knots and uncommitted appends
are undone. -/
def undoStep (s : State) (p : Nat) : State :=
  let s := settleCommits s p
  let s := stopRegion s p
  let s := { s with flight := s.flight.filter (fun k => !(rtOwner k.route == p &&
    ([tyRecord, tyCredit, tyNack].contains (rtType k.route) || (rtType k.route == tyKnot && rtTclass k.route != 3)))) }
  let s := ((s.cfg p).lnodes).foldl (fun s l => s.updLn l (fun x => { x with waits := x.waits.filter (fun w => rtOwner w.route != p || rtTclass w.route == 3) })) s
  let s := if (s.part p).seam.isSome then forceSwitch s p else s
  let s0 := s
  let s := (s.region p).foldl (fun s n => s.updNode n (fun nd =>
    if nd.fenced then nd
    else clearStepSlots n { nd with
      ins := Table.mapVals (fun _ e => rearmIn (committedIn s0 p e) e) nd.ins
      outs := Table.mapVals (fun _ e => rearmOut e.committed e) nd.outs
      halted := false
      ln := { nd.ln with stepEnds := [], appended := [],
                         bobbins := Table.mapVals (fun _ b => if b.part = p then { b with end0 := 0, end1 := 0 } else b) nd.ln.bobbins }
      pat := { nd.pat with replayPending := true } })) s
  let ks := (s.part p).pl.stepKnots
  let s := [ks.1, ks.2].foldl (fun s k => s.setKnot k { s.knot k with count := 0, sat := false }) s
  restoreHostMap (s.updPart p (fun x => { x with tr := { x.tr with vetoed := none, quiet := [] }, mir := { x.mir with waiting := none, leaves := [] } })) p

/-- Item 6 of R235 with the hem's part (R547, R550): every node starts the step after the last committed one afresh. -/
def restart (s : State) (p : Nat) (count : Bool) : State :=
  let home := (s.part p).pl.commitHome
  let t := ((s.node home).pat.committed + 1).toNat
  let s := match outProducer s p with
    | none => s
    | some (n, e) =>
      let c := ((s.node n).outEp e).committed
      match endOffset s p c.2 with
      | some o => rewindOutput s p o c.1 c.2
      | none => rewindOutput s p (s.io.mark p) c.1 c.2
  let s := resendInputs s p t
  (s.region p).foldl (fun s n => s.updNode n (fun nd =>
    if nd.fenced then nd
    else
      let d := nd.startStep n t
      { d with pat := { d.pat with replayPending := false, replays := if count then satAdd d.pat.replays 1 else d.pat.replays, timingAt := timingCounts d.pad } })) s

/-- A replay (R235, R277): poisoned pages are restored first, and where the twin must give one back the restart waits for it. -/
def replay (s : State) (p : Nat) : State :=
  let s := undoStep s p
  let r := restorePoison s p
  let s := r.1.log (r.1.eventFor 7 0x00 p)
  if !r.2 then failPart s p 0x05
  else if !(s.part p).mir.restoring.isEmpty then s
  else restart s p true

/-- Replays of one step in succession (R406): counted, and limited. `node` is the node whose hardware fault causes this one. -/
def orderReplay (s : State) (p : Nat) (node : Option NodeId) : State :=
  let x := s.part p
  let t := x.next
  let same := x.tr.replayStep == t
  let n := if same then x.tr.replayCount else 0
  if 8 ≤ n then failPart s p 0x08
  else
    let who := match node with
      | none => none
      | some m => some (m, match x.tr.replayNode with | some (q, k) => if same && q == m then k + 1 else 1 | none => 1)
    let s := s.updPart p (fun x => { x with tr := { x.tr with replayStep := t, replayCount := n + 1, replayNode := who } })
    replay s p

/-- STEP_COMMIT reaches a node of the region or the steward (R232, R234, R547, R550). A hem takes its part with the steward (log 42). -/
def execStepCommitArrival (at' : Place) (s : State) : Res :=
  onPlace at' s (fun s0 =>
    match takeArrival s0 at' (isStepSub 1) with
    | none => s0
    | some (k, s) =>
      let p := fld k.pay 123 120
      let t := fld k.pay 119 88
      match at' with
      | .hem _ => s
      | .node n =>
        if n = s.stewardAt then (match commitSteward s p t with | some s => s | none => s0)
        else if (s.node n).part = some p ∧ !(s.node n).fenced then commitNode s n t
        else s)

/-- A step marked timing-dependent, counted once (R323). -/
def Repro.mark (r : Repro) (t : Nat) : Repro :=
  if r.marks.contains t then r
  else
    { r with
      timingSteps := satAdd r.timingSteps 1
      firstTiming := if r.firstTiming = 0xFFFFFFFF then BitVec.ofNat 32 t else r.firstTiming
      marks := setIns r.marks t }

/-- A TIMING report at the steward (R323). -/
def execTimingReportReceipt (s : State) : Res :=
  .next (
    match takeArrival s (.node s.stewardAt) (isStepSub 3) with
    | none => s
    | some (k, s) =>
      let t := fld k.pay 119 88
      s.updPart (fld k.pay 123 120) (fun x => { x with rep := x.rep.mark t }))

/-- SEAM_ORDER at a node (R241). -/
def execSeamOrderArrival (n : NodeId) (s : State) : Res :=
  onNode [.m, .v, .f, .l] n s (fun s =>
    match takeArrival s (.node n) (isStepSub 2) with
    | none => s
    | some (_, s) => s.updNode n (fun d => if d.fenced then d else { d with pat := { d.pat with seamOrder := true } }))

/-- A STOP packet that has come with the command, if one has (R363, R404). -/
def takeStop (s : State) (n : NodeId) (p : Nat → Bool) : State :=
  match takeArrival s (.node n) (fun k => isStepSub 4 k && p (fld k.pay 119 88)) with
  | some (_, s) => s
  | none => s

/-- STOP with a step number (R404). -/
def execStopStep (n : NodeId) (s : State) : Res :=
  onNode [.m, .v, .f, .l] n s (fun s =>
    (takeStop s n (fun t => decide (t < 0xFFFFFFFE))).updNode n (fun d =>
      if d.fenced || d.pat.phase == .unloaded || d.pat.phase == .loaded then d else d.stopStep))
/-- STOP that holds (R404): nothing is discarded. -/
def execStopHold (n : NodeId) (s : State) : Res :=
  onNode [.m, .v, .f, .l] n s (fun s => (takeStop s n (· == 0xFFFFFFFE)).updNode n (fun d => if d.fenced then d else { d with pat := { d.pat with held := true } }))
/-- STOP that releases a hold (R404). -/
def execStopRelease (n : NodeId) (s : State) : Res :=
  onNode [.m, .v, .f, .l] n s (fun s => (takeStop s n (· == 0xFFFFFFFF)).updNode n (fun d => { d with pat := { d.pat with held := false } }))

end Sys2Proof.Machine
end

