-- ==== Sys2Proof/Machine/Mark.lean ====
section
/-! DEFINITION. MARK of every kind of node and the core patrol (R77, R87, R105 to R107, R229 to R232, R302, R408 to R411, R431, R432). -/

namespace Sys2Proof.Machine
open Sys2Proof

/-- MARK issues and blocks until its conditions hold (R229). -/
def execVMark (n : NodeId) (w : VWord) (s : State) : Res :=
  vIssue n s (w == 0) true (fun _ s => .block s .mark)

/-- An unresolved SILENT event (R431); a second within 4,096 steps of the first pauses the partition (R432). -/
def unresolvedSilent (s : State) (p : Nat) : State :=
  let x := s.part p
  let t := x.next
  let s := s.log (s.eventFor 10 0x00 p)
  let again := match x.tr.unresolvedAt with | some u => decide (t ≤ u + 4096) | none => false
  let s := s.updPart p (fun x => { x with tr := { x.tr with unresolved := satAdd x.tr.unresolved 1, unresolvedAt := some t } })
  if again then pausePart s p 0x04 else s

/-- A node passed or failed a test that a SILENT event ordered (R431): when none is left and none failed, the event is unresolved. -/
def silentTested (s : State) (n : NodeId) (pass : Bool) : State :=
  match (s.node n).part with
  | none => s
  | some p =>
    let l := (s.part p).tr.silentTests
    if !l.contains n then s
    else if !pass then s.updPart p (fun x => { x with tr := { x.tr with silentTests := [] } })
    else
      let s := s.updPart p (fun x => { x with tr := { x.tr with silentTests := setDel l n } })
      if (setDel l n).isEmpty then unresolvedSilent s p else s

/-- A core's patrol (R410, R411): `ok1` and `ok2` say whether the signature of the run and of its rerun fits. The Bool is whether it passed. -/
def runPatrol (s : State) (n : NodeId) (ok1 ok2 : Bool) : State × Bool :=
  let s := s.updNode n (fun d => { d with core := { d.core with patrolDue := false } })
  let fail (s : State) : State := s.updPanel (panelOf n) (fun q => { q with patrolFails := satAdd q.patrolFails 1 })
  if ok1 then (silentTested s n true, true)
  else if ok2 then
    let s := fail s
    (silentTested (s.log (s.eventAt 1 0x21 n)) n true, true)
  else (silentTested (fenceNode (fail (fail s)) n 0x21 true) n false, false)

/-- A self-test may start at a core divider of 4, 5 or 6 (R473, log 43). -/
def testDivider (d : Nat) : Bool := d == 4 || d == 5 || d == 6

/-- A patrol put off (R409). -/
def deferPatrol (s : State) (n : NodeId) : State :=
  (s.updNode n (fun d => { d with core := { d.core with patrolDue := false } })).updPanel (panelOf n) (fun q => { q with patrolDeferred := satAdd q.patrolDeferred 1 })

/-- A V or F core's MARK completes (R229 to R232, R409 to R411). -/
def execVMarkComplete (n : NodeId) (patrol1 patrol2 : Bool) (s : State) : Res :=
  onNode [.v, .f] n s (fun s =>
    let nd := s.node n
    if nd.core.blocked ≠ some .mark ∨ !nd.canComplete ∨ !nd.core.posted.isEmpty then s
    else if !nd.mayMark then s.updNode n Node.waitMark
    else
      let r := if !nd.core.patrolDue then (s, true)
        else if testDivider (s.panel (panelOf n)).core then runPatrol s n patrol1 patrol2
        else (deferPatrol s n, true)
      if !r.2 then r.1
      else
        match endMark (r.1.updNode n (fun d => d.retire 1 none)) n with
        | some s => s
        | none => s)

/-- PATROL_START (R408 to R411, R474): the panel's next V or F core. One of a RUNNING partition is patrolled at its next MARK, another at
once, with its registers left as a step start leaves them. -/
def execPatrolStart (panel : Nat) (patrol1 patrol2 : Bool) (s : State) : Res :=
  if 42 ≤ panel then .fault .noSuchUnit
  else
    .next (
      let cores := (panelNodes panel).filter (fun n => kindOf n == .v || kindOf n == .f)
      let i := (s.panel panel).patrolNext
      let s := s.updPanel panel (fun q => { q with patrolNext := (i + 1) % cores.length })
      match cores[i]? with
      | none => s
      | some n =>
        let nd := s.node n
        if nd.fenced || nd.resetting || nd.parked then s
        else
          let running : Bool := match nd.part with | some p => (s.part p).state == .running | none => false
          if running then s.updNode n (fun d => { d with core := { d.core with patrolDue := true } })
          else if !testDivider (s.panel panel).core then deferPatrol s n
          else
            (runPatrol s n patrol1 patrol2).1.updNode n (fun d => { d with core := { d.core with
              tiles := [], scalars := if d.pat.current = 0 then [] else [(31, d.pat.current.setWidth 64)], preds := [], counters := [], reloads := [] } }))

/-- PATROL_DEFER (R409): the core has not reached MARK within a period. -/
def execPatrolDefer (n : NodeId) (s : State) : Res :=
  onNode [.v, .f] n s (fun s => if (s.node n).core.patrolDue then deferPatrol s n else s)

/-- An M core's MARK completes (R80, R87, R229): it is the oldest command left, every tile is released, and no group is open. -/
def execMMarkComplete (n : NodeId) (s : State) : Res :=
  onNode [.m] n s (fun s =>
    let nd := s.node n
    match nd.mc.window with
    | c :: _ =>
      if fld c.word 127 124 ≠ 5 ∨ !nd.canComplete ∨ !nd.mc.flights.isEmpty ∨ !nd.mc.drains.isEmpty then s
      else if nd.mc.groups.any (fun g => g.2.isOpen) then s.updNode n (fun d => mFault d 0x06 c.idx 0 0 0)
      else if !nd.mayMark then s.updNode n Node.waitMark
      else
        match endMark (s.updNode n (fun d => { d with mc := { d.mc with window := d.mc.window.drop 1 } })) n with
        | some s => s
        | none => s
    | [] => s)

/-- Service inputs of an L node that are in its step set (R296). -/
def stepSet (p : Pat) : List Nat := (List.range 256).filter (fun e => streamRole p e == 1 && streamStep p e)

/-- An L node completes MARK (R302): every STEP_END of its step set is in, and what came before it is served and accepted. -/
def execLMarkComplete (n : NodeId) (s : State) : Res :=
  onNode [.l] n s (fun s =>
    let nd := s.node n
    let es := stepSet nd.pat
    if !nd.canComplete ∨ !(nd.pat.phase == .inStep || nd.pat.phase == .waitCommit) ∨ !es.all (fun e => nd.ln.stepEnds.contains e) ∨
       nd.ln.outbox.any (fun m => es.contains m.src) then s
    else if !nd.mayMark then s.updNode n Node.waitMark
    else match endMark s n with | some s => s | none => s)

/-- A physical lane that serves a logical one: itself, or the spare that stands in for it (R106). -/
def laneServes (rep : Table Nat) (k : Nat) : Option Nat := (List.find? (fun (e : Nat × Nat) => e.1 == k) rep).map (·.2)

/-- One physical row or column retired to a free spare (R106). None: a ninth would be needed (R107). -/
def retireLane (rep : Table Nat) (bad : List Nat) (lane : Nat) : Option (Table Nat × List Nat) :=
  if bad.contains lane then some (rep, bad)
  else
    let bad := setIns bad lane
    let logical := if lane < 512 then some lane else laneServes rep (lane - 512)
    let rep := if lane < 512 then rep else Table.del rep (lane - 512)
    match logical with
    | none => some (rep, bad)
    | some l =>
      match (List.range 8).find? (fun k => !Table.has rep k && !bad.contains (512 + k)) with
      | some k => some (Table.put rep k l, bad)
      | none => none

/-- Lanes retired one after another. -/
def retireLanes (lanes : List Nat) (r : Option (Table Nat × List Nat)) : Option (Table Nat × List Nat) :=
  lanes.foldl (fun r l => r.bind (fun x => retireLane x.1 x.2 l)) r

/-- ARRAY_DIAGNOSTIC (R105 to R107, R431): the physical rows and columns that the test names are retired, of the kinds the failure implicated. -/
def execArrayDiagnostic (n : NodeId) (rows cols : List Nat) (s : State) : Res :=
  if (rows ++ cols).any (fun k => decide (520 ≤ k)) then .fault .noSuchUnit
  else onNode [.m] n s (fun s =>
    let nd := s.node n
    match nd.mc.diagDue with
    | none => s
    | some (ir, ic) =>
      if nd.fenced then s
      else if !testDivider (s.panel (panelOf n)).core then fenceNode (s.updNode n (fun d => { d with mc := { d.mc with diagDue := none } })) n 0x2D true
      else
        let rows := if ir then rows else []
        let cols := if ic then cols else []
        let s := s.updNode n (fun d => { d with mc := { d.mc with diagDue := none } })
        let named := !(rows.isEmpty && cols.isEmpty)
        match retireLanes rows (some (nd.mc.rowRep, nd.mc.badRows)), retireLanes cols (some (nd.mc.colRep, nd.mc.badCols)) with
        | some r, some c =>
          let s := s.updNode n (fun d => { d with mc := { d.mc with rowRep := r.1, badRows := r.2, colRep := c.1, badCols := c.2 } })
          let s := if named then
              let e := s.eventAt 6 (nd.fault.toNat % 256) n
              let s := s.updMap [n] true (fun _ x => { x with repairs := r.1.length + c.1.length })
              s.note e true n false
            else s
          silentTested s n (!named)
        | _, _ => silentTested (fenceNode s n 0x14 true) n false)

end Sys2Proof.Machine
end

