-- ==== Sys2Proof/Machine/Knot.lean ====
section
/-! DEFINITION. Knots at their L nodes, and replies at nodes and hems (R199 to R206, R233, R559). -/

namespace Sys2Proof.Machine
open Sys2Proof

/-- The count after an operation (R201): its new value and whether it would pass the largest count. -/
def Knot.add (x : Knot) (v : Nat) : Knot :=
  if x.count.toNat + v < 2 ^ 32 then { x with count := BitVec.ofNat 32 (x.count.toNat + v) } else { x with count := 0xFFFFFFFF, sat := true }
def Knot.apply (x : Knot) (op v : Nat) : Knot :=
  match op with
  | 1 => x.add 1
  | 2 => x.add v
  | 4 => { x with count := BitVec.ofNat 32 v, sat := false }
  | _ => x

/-- The reply to a knot request (R204). -/
def knotAnswer (s : State) (l : NodeId) (route pay : U128) (status count : Nat) : State :=
  sendReply s l (answerDest route) route tyKnot (setFld (setFld (setFld pay 127 124 8) 79 72 status) 31 0 count) []

/-- Waiting WAITs that the count now satisfies are answered in the order they arrived (R202). -/
def answerWaits (s : State) (n : NodeId) (slot : Nat) : State :=
  let l := lIndex n
  let c := (Table.get {} (s.ln l).knots slot).count.toNat
  let ready (w : KnotWait) : Bool := w.slot == slot && decide (w.v ≤ c)
  let ws := (s.ln l).waits.filter ready
  let s := s.updLn l (fun x => { x with waits := x.waits.filter (fun w => !ready w) })
  ws.foldl (fun s w => knotAnswer s n w.route w.pay 0 c) s

/-- One knot request at an L node (R200 to R204, R233). -/
def knotRequest (n : NodeId) (op : Nat) (s : State) : Res :=
  onNode [.l] n s (fun s0 =>
    match takeArrival s0 (.node n) (fun k => rtType k.route == tyKnot && !k.aborted && fld k.pay 127 124 != 8) with
    | none => s0
    | some (k, s) =>
      if fld k.pay 127 124 ≠ op then s0
      else
        let l := lIndex n
        let p := fld k.pay 123 120
        let id := fld k.pay 119 104
        let v := fld k.pay 63 32
        let slot := id % 256
        let x : Knot := Table.get {} (s.ln l).knots slot
        if id / 256 ≠ l ∨ !x.alloc ∨ x.part ≠ p then knotAnswer s n k.route k.pay 1 x.count.toNat
        else if op = 3 then
          if v ≤ x.count.toNat then knotAnswer s n k.route k.pay 0 x.count.toNat
          else if 1024 ≤ (s.ln l).waits.length then knotAnswer s n k.route k.pay 2 x.count.toNat
          else s.updLn l (fun y => { y with waits := y.waits ++ [⟨slot, v, k.route, k.pay⟩] })
        else
          let y := x.apply op v
          let s := s.updLn l (fun z => { z with knots := Table.put z.knots slot y })
          let s := answerWaits (knotAnswer s n k.route k.pay 0 y.count.toNat) n slot
          let ks := (s.part p).pl.stepKnots
          if (s.part p).pl.commitHome = n ∧ (id = ks.1 ∨ id = ks.2) then commitDecision s p else s)

/-- KNOT_ARRIVE_REQ (R201, R202, R233). -/
def execKnotArriveReq (n : NodeId) (s : State) : Res := knotRequest n 1 s
/-- KNOT_ADD_REQ (R201, R202, R233). -/
def execKnotAddReq (n : NodeId) (s : State) : Res := knotRequest n 2 s
/-- KNOT_WAIT_REQ (R201 to R203). -/
def execKnotWaitReq (n : NodeId) (s : State) : Res := knotRequest n 3 s
/-- KNOT_RESET_REQ (R201, R202). -/
def execKnotResetReq (n : NodeId) (s : State) : Res := knotRequest n 4 s

/-- The position of the active Host hem (R24, R560). -/
def hostHemAt (s : State) : Nat := if s.stw.hostB then 10 else 3

/-- A started entry completes and leaves its ring (R545, R546). -/
def finishEntry (s : State) (f r : Nat) (e : SqEntry) (status result : Nat) : State :=
  let s := s.updRing f r (fun x => { x with started := match takeFirst (fun y : SqEntry × List Byte => y.1 == e) x.started with | some (_, t) => t | none => x.started })
  complete s f r e status result

/-- A knot reply at the Host hem (R203, R559). -/
def knotReplyHem (s : State) (k : Packet) : State :=
  let t := fld k.pay 103 96
  match List.find? (fun (x : Nat × Nat × Nat × SqEntry) => x.1 == t) s.io.knots with
  | none => s
  | some (_, f, r, e) =>
    let st := fld k.pay 79 72
    if st = 2 then s.updIo (fun x => { x with knotRetry := x.knotRetry ++ [k.pay] })
    else
      let s := s.updIo (fun x => { x with knots := x.knots.filter (fun y => y.1 != t) })
      finishEntry s f r e (if st = 1 then 0x02000001 else if st = 3 then 0x06000002 else 0) (fld k.pay 31 0)

/-- KNOT_REPLY (R203, R205, R559). -/
def execKnotReply (at' : Place) (s : State) : Res :=
  onPlace at' s (fun s0 =>
    match takeArrival s0 at' (fun k => rtType k.route == tyKnot && !k.aborted && fld k.pay 127 124 == 8) with
    | none => s0
    | some (k, s) =>
      match at' with
      | .node n => knotReplyNode s n k
      | .hem h => if h = hostHemAt s then knotReplyHem s k else s)

/-- A knot request sent by the active Host hem (R541, R559). -/
def hemKnot (s : State) (p op knot ticket value : Nat) : State :=
  let n := lNode (knot / 256)
  hemInject s n tyKnot p (knotPay op p knot ticket (hostDest s n s.stw.hostB).at' 0 value 0) []

/-- KNOT_RETRY_RESEND (R203): a WAIT answered RETRY goes out again after 64 control cycles. -/
def execKnotRetryResend (at' : Place) (s : State) : Res :=
  onPlace at' s (fun s =>
    match at' with
    | .node n =>
      match (s.node n).core.retry with
      | some (knot, v, t) =>
        let s := s.updNode n (fun d => { d with core := { d.core with retry := none }, pad := { d.pad with knotRetries := satAdd d.pad.knotRetries 1 } })
        sendKnot s n 3 knot t v
      | none => s
    | .hem h =>
      if h ≠ hostHemAt s then s
      else
        match s.io.knotRetry with
        | [] => s
        | y :: t => hemKnot (s.updIo (fun x => { x with knotRetry := t })) (fld y 123 120) 3 (fld y 119 104) (fld y 103 96) (fld y 63 32))

end Sys2Proof.Machine
end

