-- ==== Sys2Proof/Machine/MDrain.lean ====
section
/-! DEFINITION. The M core's drain pipeline, finished-tile queue and loop tokens (R51 to R54, R76, R85, R90 to R96, R227, R341 to R343). -/

namespace Sys2Proof.Machine
open Sys2Proof

/-- The first DRAIN of the window that has not issued (R85). -/
def nextDrain (nd : Node) : Option WinCmd := nd.mc.window.find? (fun c => fld c.word 127 124 == 3 && !c.issued)

/-- A-pad units that a KEEP operand, or a cuff vector, names lie in the pad. -/
def aPadFits (unit bytes : Nat) : Bool := decide (512 * unit + bytes ≤ mPadBytes 1)

/-- Pad of a DRAIN destination: DEST 1 A-pad, 2 W-pad, 3 P-pad (R76). -/
def destPad (dest : Nat) : Nat := match dest with | 1 => 1 | 2 => 0 | _ => 2

/-- What stops a DRAIN in place of issuing (R72, R92, R179, R341, R672), over its word, group, cuff operations and destination units. -/
def drainFault (nd : Node) (w : U128) (g : Group) (prog : Option (List Byte)) (ops : List (Nat × U64)) (units : List Int) : Option Nat :=
  let code := fld w 121 118
  let keeps := (ops.filter (fun o => o.1 == 8)).map (fun o => fld o.2 59 44)
  let vecs := (ops.filter (fun o => o.1 == 1 || o.1 == 2)).map (fun o => fld o.2 59 44)
  let dest := fld w 115 113
  let size := blockBytes code + (if isScaledCode code then 32 else 0)
  let off (e : Nat) : Bool := outMode (nd.outEp e).desc == 0
  let small (e n : Nat) : Bool := decide (64 * outMaxrec (nd.outEp e).desc < recBytes n)
  if prog.isNone then some 0x05
  else if ops.any (fun o => decide (9 ≤ o.1)) then some 0x04
  else if keeps.any (fun k => decide (0x8040 ≤ k)) then some 0x05
  else if (dest = 0 ∧ off (fld w 112 107)) ∨ keeps.any (fun k => decide (0x8000 ≤ k) && off (k - 0x8000)) then some 0x0B
  else if (dest = 0 ∧ small (fld w 112 107) size) ∨ keeps.any (fun k => decide (0x8000 ≤ k) && small (k - 0x8000) 4096) then some 0x0C
  else if !vecs.all (fun u => aPadFits u 2048) ∨ !keeps.all (fun k => decide (0x8000 ≤ k) || aPadFits k (128 * (g.mrows + 1) * (g.ncols + 1))) then some 0x05
  else if dest ≠ 0 ∧ !unitsInPad (destPad dest) (footprint code) units then some 0x05
  else none

/-- Bits packed eight to a byte, the first lowest. -/
def packBits : List Bool → List Byte
  | a :: b :: c :: d :: e :: f :: g :: h :: t =>
    BitVec.ofNat 8 (b2n a + 2 * b2n b + 4 * b2n c + 8 * b2n d + 16 * b2n e + 32 * b2n f + 64 * b2n g + 128 * b2n h) :: packBits t
  | _ => []

/-- The mask message of a 32-row band (R342). -/
def maskBand (N band : Nat) (bits : List Bool) : List Byte :=
  (chunks N 32 (bits.drop (32 * N * band))).flatMap (fun r => packBits r ++ List.replicate (128 - N / 8) 0)

/-- A drained tile's blocks, masks and counts (R50 to R54, R91 to R93, R338, R341, R342). -/
def drainTile (nd : Node) (c : WinCmd) (g : Group) (ops : List (Nat × U64)) (units : List Int) : Drained × Nat × Nat :=
  let w := c.word
  let code := fld w 121 118
  let sat := bit w 117
  let mx := isScaledCode code
  let square := !mx || bit w 116
  let N := 32 * (g.ncols + 1)
  let a := (g.anchor).getD 0
  let acc := if g.spilled then homeAccs nd.pad g else g.acc
  let vec (u n : Nat) : Num := f32 (leNat (nd.pad.read (unitAddr 1 u + 4 * n) 4))
  let cuffed := mx || fld w 90 87 != 0
  let r := if cuffed then cuffRun a N vec ops acc else ⟨acc.map (accNum a), 0, []⟩
  let arr := r.vals.toArray
  let bs := (List.range (g.mrows + 1)).flatMap (fun br => (List.range (g.ncols + 1)).map (fun bc => convertBlock code sat (bit w 116) (blockOf N br bc .nan arr)))
  let masks := r.keep.flatMap (fun k => if k.1 < 0x8000 then [] else (List.range (g.mrows + 1)).map (fun b => (k.1 - 0x8000, maskBand N b k.2)))
  let keeps := (r.keep.filter (fun k => decide (k.1 < 0x8000))).map (fun k => (k.1, packBits k.2))
  ({ idx := c.idx, g := fld w 123 122, dest := fld w 115 113, chan := fld w 112 107, fmt := code, square := square, ncols := g.ncols + 1,
     units := units.map Int.toNat, blocks := bs.map (fun b => (b.bytes, b.scales)), masks := masks, keeps := keeps, waiting := false, outbox := []
     released := false },
   r.ovf + bs.foldl (fun n b => n + b.ovf) 0, bs.foldl (fun n b => n + b.nan) 0)

/-- Buffers a tile takes: block buffers when it leaves on a channel, and mask buffers (R94, R343). -/
def Drained.need (d : Drained) : Nat × Nat := (if d.dest = 0 then d.blocks.length else 0, d.masks.length)
/-- Room in the finished-tile queue (R94, R96). -/
def ftqRoom (m : MCore) (d : Drained) : Bool := decide (m.ftqUsed + d.need.1 ≤ 256) && decide (m.maskUsed + d.need.2 ≤ 16)

/-- A tile's rows leave its accumulators and enter the queue: its plane is free, its DRAIN done and its group may open again. -/
def takeTile (m : MCore) (d : Drained) : MCore :=
  let g := m.group d.g
  let m := { m with
    ftqUsed := m.ftqUsed + d.need.1
    maskUsed := m.maskUsed + d.need.2
    planes := match g.plane with | some p => Table.del m.planes p | none => m.planes
    groups := Table.del m.groups d.g }
  (m.mapWin (fun c => fld c.word 127 124 == 3 && c.idx == d.idx && c.issued && !c.done) (fun c => { c with done := true })).prune

/-- DRAIN_ISSUE (R85, R89 to R96, R159, R171, R341, R672): the oldest DRAIN whose group has completed its passes. `differ` is a difference of the
two pipeline copies; `struck` a word whose stored bits a physical cause upset. -/
def execDrainIssue (n : NodeId) (differ : Bool) (struck : Option Nat) (s : State) : Res :=
  nodeOnly [.m] n s (fun nd =>
    match nextDrain nd with
    | none => nd
    | some c =>
      let gi := fld c.word 123 122
      let g := nd.mc.group gi
      if !(nd.live && nd.mc.run) || !decide (g.passes ≤ g.completed) || nd.mc.drains.any (·.waiting) then nd
      else
        let ops := cuffOps (c.cuff.getD [])
        let code := fld c.word 121 118
        let units := if fld c.word 115 113 = 0 then [] else operandUnits c.daddr (fld c.word 86 79) (footprint code) (g.mrows + 1) (g.ncols + 1)
        match drainFault nd c.word g c.cuff ops units with
        | some f => mFault nd f c.idx gi 0 0
        | none =>
          let vecs := (ops.filter (fun o => o.1 == 1 || o.1 == 2)).map (fun o => fld o.2 59 44)
          let r := vecs.foldl (fun (r : Pad × Access) u => match r.2 with | .ok => padReadCheck n r.1 (unitAddr 1 u) 2048 struck | _ => r) (nd.pad, .ok)
          let nd := { nd with pad := r.1 }
          match r.2 with
          | .stop f tag => mFault nd f c.idx gi 0 tag
          | .ok =>
            if differ then mFault nd 0x12 c.idx gi 0 0
            else
              let t := drainTile nd c g ops units
              let work := 4 * 32 * (g.mrows + 1)
              let room := ftqRoom nd.mc t.1
              let m := { nd.mc.mapWin (fun d => d == c) (fun d => { d with issued := true }) with
                drainCycles := satAdd nd.mc.drainCycles work
                drainOvf := satAdd nd.mc.drainOvf t.2.1
                drainNan := satAdd nd.mc.drainNan t.2.2
                drains := nd.mc.drains ++ [{ t.1 with waiting := !room }] }
              { nd with mc := if room then takeTile m t.1 else m, pat := nd.pat.addWork work })

/-- DRAIN_RESUME (R96): the drain that waits for room goes on once there is room. -/
def execDrainResume (n : NodeId) (s : State) : Res :=
  nodeOnly [.m] n s (fun nd =>
    match nd.mc.drains.find? (·.waiting) with
    | none => nd
    | some d =>
      if nd.canComplete && ftqRoom nd.mc d then
        { nd with mc := takeTile { nd.mc with drains := nd.mc.drains.map (fun x => if x.waiting then { x with waiting := false } else x) } d }
      else nd)

/-- Messages of a released tile in order (R95, R343): blocks in block-row order, the masks of their own endpoint each after its band. -/
def tileMessages (d : Drained) : List (Nat × List Byte × Bool) :=
  let same := d.masks.filter (fun m => d.dest == 0 && m.1 == d.chan)
  let other := d.masks.filter (fun m => !(d.dest == 0 && m.1 == d.chan))
  let bands := d.blocks.length / d.ncols
  let blocks := if d.dest = 0 then
      (chunks d.ncols bands d.blocks).zipIdx.flatMap (fun r =>
        r.1.map (fun b => (d.chan, b.1 ++ (if isScaledCode d.fmt then b.2 else []), true)) ++
        (same.zipIdx.filter (fun x => x.2 % bands == r.2)).map (fun x => (x.1.1, x.1.2, false)))
    else []
  blocks ++ other.map (fun m => (m.1, m.2, false))

/-- Messages offered in order; an endpoint without credit holds back its own later ones. Answers what is left, and buffers freed. -/
def offerMessages (s : State) (n : NodeId) (ms : List (Nat × List Byte × Bool)) : State × List (Nat × List Byte × Bool) × Nat × Nat :=
  let r := ms.foldl (fun (r : State × List Nat × List (Nat × List Byte × Bool) × Nat × Nat) m =>
    let stay : State × List Nat × List (Nat × List Byte × Bool) × Nat × Nat := (setBlockedOut r.1 n m.1 true, m.1 :: r.2.1, r.2.2.1 ++ [m], r.2.2.2)
    if r.2.1.contains m.1 then (r.1, r.2.1, r.2.2.1 ++ [m], r.2.2.2)
    else
      match trySend r.1 n m.1 { kind := 0, data := m.2.1 } with
      | some s => (setBlockedOut s n m.1 false, r.2.1, r.2.2.1, r.2.2.2.1 + b2n m.2.2, r.2.2.2.2 + b2n (!m.2.2))
      | none => stay) (s, [], [], 0, 0)
  (r.1, r.2.2.1, r.2.2.2.1, r.2.2.2.2)

/-- Released tiles send what credit allows, one tile after another (R94, R95). -/
def pumpTiles (n : NodeId) : Nat → State → State
  | 0, s => s
  | fuel + 1, s =>
    match (s.node n).mc.drains with
    | [] => s
    | d :: t =>
      if !d.released then s
      else
        let r := offerMessages s n d.outbox
        let s := r.1.updNode n (fun x => { x with mc := { x.mc with
          ftqUsed := x.mc.ftqUsed - r.2.2.1, maskUsed := x.mc.maskUsed - r.2.2.2
          drains := if r.2.1.isEmpty then t else { d with outbox := r.2.1 } :: t } })
        if r.2.1.isEmpty then pumpTiles n fuel s else s

/-- Slots that a tile's destination touches (R169). -/
def Drained.slots (d : Drained) : List Nat := (d.units.flatMap (blockSlots (destPad d.dest) (footprint d.fmt))).foldl setIns []
/-- A tile of DEST 1 to 3 written to its pad, its slots FILLED, and KEEP masks written to A-pad (R68, R92, R169). -/
def writeTileOut (p : Pad) (d : Drained) : Pad :=
  let flags : Byte := mkWord 8 [(4, d.fmt), (2, b2n d.square)]
  let p := if d.dest = 0 then p
    else
      ((d.units.zip d.blocks).foldl (fun p x =>
        if d.dest = 3 then p.write (unitAddr 2 x.1) x.2.1 else writeBlock p (destPad d.dest) x.1 d.fmt flags x.2.2 x.2.1) p).fill d.slots
  d.keeps.foldl (fun p k => p.write (unitAddr 1 k.1) k.2) p

/-- TILE_RELEASE (R85, R94, R95, R169, R171, R342, R343): the oldest tile not yet released. -/
def execTileRelease (n : NodeId) (s : State) : Res :=
  onNode [.m] n s (fun s =>
    let nd := s.node n
    match nd.mc.drains.find? (fun d => !d.released) with
    | none => s
    | some d =>
      if d.waiting || !nd.canComplete then s
      else
        let touched := (d.slots ++ d.keeps.flatMap (fun k => slotsOf (unitAddr 1 k.1) k.2.length)).foldl setIns []
        match touched.find? (fun k => nd.pad.tagged.getLsbD k && nd.pad.filled.getLsbD k), nd.pad.checked with
        | some k, true =>
          s.updNode n (fun nd => mFault { nd with pad := { nd.pad with fillFaultLoc := if bit nd.pad.fillFaultLoc 63 then nd.pad.fillFaultLoc else fillLocWord n k true } }
            0x0A d.idx d.g 0 0)
        | bad, _ =>
          let s := s.updNode n (fun nd =>
            let p := if bad.isSome then { nd.pad with obdUnchecked := satAdd nd.pad.obdUnchecked 1 } else nd.pad
            { nd with
              pad := writeTileOut p d
              mc := { nd.mc with
                tilesReleased := if d.dest = 0 then satAdd nd.mc.tilesReleased 1 else nd.mc.tilesReleased
                drains := nd.mc.drains.map (fun x => if x == d then { x with released := true, outbox := tileMessages d } else x) } })
          pumpTiles n ((s.node n).mc.drains.length + 1) s)

/-- LOOP_TABLE_TOKEN (R225, R227): the loop that waits takes its count from the oldest token of its endpoint, which is released; a SEAM of an
endpoint no longer sealed is released before it (R242). -/
def execLoopTableToken (n : NodeId) (loop : Nat) (s : State) : Res :=
  if 16 ≤ loop then .fault .noSuchUnit
  else onNode [.m] n s (fun s0 =>
    let nd0 := s0.node n
    match nd0.mc.loopWait, (loopTable nd0.pat nd0.pat.active)[loop]? with
    | some i, some e =>
      let s := dropSeam s0 n e.ep
      let nd := s.node n
      match (nd.inEp e.ep).recs with
      | r :: _ =>
        if i ≠ loop ∨ !(nd.live && nd.mc.run) ∨ rhToken r.hdr = 4 then s0
        else
          let v := rhTokval r.hdr
          let f := giveCount nd.pat (nd.mc.pos nd.pat.active) i v
          let s := s.updNode n (fun d =>
            let d := releaseRecs d e.ep 1
            { d with
              mc := { (d.mc.setPos f) with groups := Table.mapVals (fun _ g =>
                if (g.isOpen || g.draining) && !g.amode && g.scanned.isNone then { g with tokSeen := g.tokSeen ++ [(e.ep, v)] } else g) d.mc.groups }
              pat := { d.pat with runRates := Table.put d.pat.runRates e.rate (satAdd (Table.get 0 d.pat.runRates e.rate) v) } })
          creditIfDue (consumed s n) n e.ep false
      | [] => s0
    | _, _ => s0)

end Sys2Proof.Machine
end

