-- ==== Sys2Proof/Machine/Arrive.lean ====
section
/-! DEFINITION. Records, credits and NACKs that reach a node or a hem (R181 to R192, R198, R248, R363, R391, R547, R548, R673). -/

namespace Sys2Proof.Machine
open Sys2Proof

/-- RECORD_ARRIVAL (R186, R190, R391, R548): an aborted record is discarded; a fenced node takes nothing. -/
def execRecordArrival (at' : Place) (s : State) : Res :=
  onPlace at' s (fun s0 =>
    match takeArrival s0 at' (fun k => rtType k.route == tyRecord) with
    | none => s0
    | some (k, s) =>
      if k.aborted then s
      else
        match at' with
        | .node n => if (s.node n).fenced then s else recordAtNode s n k
        | .hem h => if h = hostHemAt s then recordAtHem s k else s)

/-- A credit at a node's output endpoint (R188, R191, R248, R673). -/
def creditAtNode (s : State) (n : NodeId) (k : Packet) : State :=
  let ep := fld k.pay 127 120
  let o := (s.node n).outEp ep
  if outMode o.desc = 0 then refuseOwner s n k
  else
    let a := fld k.pay 111 92
    let s := s.updNode n (fun d => d.updOut ep (fun o => { o with credit := o.credit + (if outMode o.desc = 1 then 64 * a else a) }))
    let s := letoutPump n ep (((s.node n).outEp ep).loQ.length) s
    match kindOf n with
    | .l => pumpOutbox s n
    | .m => pumpTiles n ((s.node n).mc.drains.length + 1) s
    | _ => s

/-- CREDIT_ARRIVAL (R188): records that waited for it in an L node's outbox, a finished tile or the hem go out. -/
def execCreditArrival (at' : Place) (s : State) : Res :=
  onPlace at' s (fun s0 =>
    match takeType s0 at' tyCredit with
    | none => s0
    | some (k, s) =>
      match at' with
      | .node n => if (s.node n).fenced then s else creditAtNode s n k
      | .hem h => if h = hostHemAt s then creditAtHem s k else s)

/-- CREDIT_RETURN_TIMEOUT (R188): 64 fabric cycles after the oldest unreturned release. -/
def execCreditReturnTimeout (n : NodeId) (ep : Nat) (s : State) : Res :=
  if epCount n ≤ ep then .fault .noSuchUnit
  else onNode [.m, .v, .f, .l] n s (fun s => if (s.node n).fenced then s else creditIfDue s n ep true)

/-- A NACK at a node (R198): the end that sent the refused record or credit breaks, once. -/
def nackAtNode (s : State) (n : NodeId) (k : Packet) : State :=
  let ep := fld k.pay 115 108
  let ty := fld k.pay 123 116
  if ty = tyRecord then (if ((s.node n).outEp ep).broken then s else breakOut s n ep)
  else if ty = tyCredit then (if ((s.node n).inEp ep).broken then s else breakIn s n ep)
  else s

/-- A NACK at the Host hem (R198, R547, R548): the hem's end breaks and the steward is told. -/
def nackAtHem (s : State) (k : Packet) : State :=
  let p := rtOwner k.route
  let e := fld k.pay 115 108
  let ty := fld k.pay 123 116
  let told (s : State) : State := s.note (s.eventFor 1 0x18 p) false (nodeAt (fld k.pay 91 84) (fld k.pay 83 76)) false
  if ty = tyRecord then
    let o := s.hostIn (hostKey p e)
    if o.broken || outMode o.desc == 0 then s else told (s.setHostIn (hostKey p e) { o with broken := true })
  else if ty = tyCredit then
    let o := s.hostOut p
    if o.broken then s else told (s.setHostOut p { o with broken := true })
  else s

/-- NACK_ARRIVAL (R198, R363). -/
def execNackArrival (at' : Place) (s : State) : Res :=
  onPlace at' s (fun s0 =>
    match takeType s0 at' tyNack with
    | none => s0
    | some (k, s) =>
      match at' with
      | .node n => if (s.node n).fenced then s else nackAtNode s n k
      | .hem h => if h = hostHemAt s then nackAtHem s k else s)

end Sys2Proof.Machine
end

