-- ==== Sys2Proof/Machine/Copies.lean ====
section
/-! DEFINITION. COPY_IN, COPY_OUT and IMPORT under way: the memory requests that the active hem sends, one at a time and in address order, so
that a fault leaves nothing after its line (R544 to R546, R556, R558). -/

namespace Sys2Proof.Machine
open Sys2Proof

/-- An L node that serves a partition's Bolt page, by its cache set or else the lowest of the partition (R312, log 50). -/
def boltServer (s : State) (p pa : Nat) (cached : Bool) : Nat :=
  match (if cached then cacheAt s p ((pa - 0x20000000000) / 4096) else none) with
  | some (l, _) => l
  | none => nth 0 (s.cfg p).lnodes 0

/-- Where the next request of a copy goes: L node, module physical address and bytes. None: the address does not translate (R271). A request
stays within a 4 KiB granule, and a read of the Bolt within one line, the unit that a failing tag poisons. -/
def copyPiece (s : State) (p pa left : Nat) (write : Bool) : Option (Nat × Nat × Nat) :=
  match xlate s p pa write with
  | .unmapped => none
  | .lining a _ => some (a / 0x200000000, a, min left (4096 - pa % 4096))
  | .bolt o _ c => some (boltServer s p pa c, 0x20000000000 + o, min left (if write then 4096 - pa % 4096 else 64 - pa % 64))

/-- OP of an entry that writes module memory. -/
def copyWrites (e : SqEntry) : Bool := e.op == 0x02 || e.op == 0x04

/-- A job leaves. -/
def endCopy (s : State) (j : CopyJob) (status : Nat) : State :=
  finishEntry (s.updIo (fun x => { x with copies := x.copies.filter (fun k => k != j) })) j.f j.ring j.entry status 0

/-- A job sends its next request, or completes (R544, R546). -/
def copyNext (s : State) (j : CopyJob) : State :=
  let p := ringPart j.f (s.ring j.f j.ring)
  let n := j.entry.len.toNat
  if n ≤ j.pos then endCopy s j 0
  else
    match copyPiece s p (j.entry.maddr.toNat + j.pos) (n - j.pos) (copyWrites j.entry) with
    | none => endCopy s j 0x0600011B
    | some (l, a, k) =>
      let t := s.io.nextTag
      let s := s.updIo (fun x => { x with
        nextTag := (t + 1) % 65536
        copies := x.copies.map (fun i => if i = j then { j with tag := t, len := k } else i) })
      if copyWrites j.entry then hemInject s (lNode l) tyWriteReq p (memDesc a t k 0) ((j.data.drop j.pos).take k)
      else hemInject s (lNode l) tyReadReq p (memDesc a t k 0) []

/-- A job begun, or begun again. -/
def startCopy (s : State) (f ring : Nat) (e : SqEntry) (data : List Byte) : State :=
  let j : CopyJob := ⟨f, ring, e, 0, 0, 0, data⟩
  copyNext (s.updIo (fun x => { x with copies := x.copies ++ [j] })) j

/-- Every copy under way begins again on the new hem (R562). -/
def restartCopies (s : State) : State :=
  let js := s.io.copies
  js.foldl (fun s j => startCopy s j.f j.ring j.entry j.data) (s.updIo (fun x => { x with copies := [] }))

/-- The answer to a copy's request reaches the hem (R364, R546): data go to the host, a fault ends the entry with its code. -/
def copyAnswer (s : State) (k : Packet) : State :=
  match List.find? (fun (j : CopyJob) => j.tag == mdTag k.pay && j.len != 0 && copyWrites j.entry == (rtType k.route == tyWriteAck)) s.io.copies with
  | none => s
  | some j =>
    if mdStatus k.pay ≠ 0 then endCopy s j (0x06000100 + mdStatus k.pay)
    else
      let s := if copyWrites j.entry then s else { s with hostMem := s.hostMem.write (j.entry.haddr.toNat + j.pos) (k.data.take j.len) }
      let j2 := { j with pos := j.pos + j.len, len := 0 }
      copyNext (s.updIo (fun x => { x with copies := x.copies.map (fun i => if i = j then j2 else i) })) j2

end Sys2Proof.Machine
end

