-- ==== Sys2Proof/Machine/Grade.lean ====
section
/-! DEFINITION. The grade of the part, Bolt packages out of service, and failover between the Host hems (R3, R435, R484, R489, R515, R560 to
R563). -/

namespace Sys2Proof.Machine
open Sys2Proof

/-- Minimum GOOD nodes of a grade: compute, M, V, F, L (R3). -/
def gradeMin (g : Nat) : List Nat :=
  match g with
  | 2 => [1800, 144, 1386, 270, 228]
  | 3 => [1600, 128, 1232, 240, 216]
  | _ => [2000, 160, 1540, 300, 240]
/-- Envelope in watts and smallest core divider of a grade (R3, R638). -/
def gradeEnvelope (g : Nat) : Nat := match g with | 0 => 25000 | 3 => 12000 | _ => 18000
def gradeDivider (g : Nat) : Nat := match g with | 0 => 4 | 3 => 6 | _ => 5

/-- GRADE_SHORT: [0] compute, [1] M, [2] V, [3] F, [4] L, [5] Bolt (R435, R489, R495). -/
def gradeShort (s : State) : Nat :=
  let n (k : Kind) : Nat := (allNodes.filter (fun m => kindOf m == k && s.good m)).length
  let m := n .m
  let v := n .v
  let f := n .f
  let counts := [m + v + f, m, v, f, n .l]
  let short := (List.zip counts (gradeMin s.brg.grade)).map (fun x => decide (x.1 < x.2)) ++ [!s.stw.f.boltLost.isEmpty]
  short.zipIdx.foldl (fun a x => a + (if x.1 then 2 ^ x.2 else 0)) 0

/-- READY or RUNNING, as partitions stand (R515). -/
def readyOrRunning (s : State) : ModuleState := if (List.range 16).any (fun p => (s.part p).state != .empty) then .running else .ready

/-- The grade check after a fault map update (R435, R515): the module enters or leaves DEGRADED; in UPDATING it waits. -/
def gradeCheck (s : State) : State :=
  let b := gradeShort s
  let s := { s with brg := { s.brg with short := b } }
  let enter (m : ModuleState) : State := { s with stw := { s.stw with mstate := m } }
  match s.stw.mstate with
  | .ready | .running => if b ≠ 0 then enter .degraded else s
  | .degraded => if b = 0 then enter (readyOrRunning s) else s
  | _ => s

/-- Bolt packages of a Bolt hem (R27). -/
def hemPackages (h : Nat) : List Nat :=
  match boltHems.findIdx? (· == h) with
  | some i => rangeFrom (8 * i) 8
  | none => []

/-- Packages of one Bolt hem leave service: one event of KIND 16, and the grade is checked (R435). -/
def boltOut (s : State) (h : Nat) (pkgs : List Nat) : State :=
  let new := pkgs.filter (fun p => !s.stw.f.boltLost.contains p)
  if new.isEmpty then s
  else
    let r := (hemRouter h 0).1
    let ev : FaultEvent := { gen := 0, step := 0xFFFFFFFF, kind := 16, code := 0, x := nx r, y := ny r, part := 0xFF, port := new.length,
                             placement := 0xFFFF, stamp := s.stamp (panelOf r), panel := panelOf r }
    gradeCheck ((s.updFaults (fun q => { q with boltLost := new.foldl setIns q.boltLost })).log ev)

/-- BOLT_PACKAGE_FAILED (R435, R484): its hem reports it failed. -/
def execBoltPackageFailed (package : Nat) (s : State) : Res :=
  if 128 ≤ package then .fault .noSuchUnit else .next (boltOut s (boltHem package).1 [package])

/-- A hem function's state carried over at failover (R561, R563): rings, output configuration, STATUS_MIRROR and apertures as they stood. -/
def carryFn (s : State) (f : Nat) (old new : HostFn) : HostFn :=
  { new with
    rings := old.rings, outBase := old.outBase, outCfg := old.outCfg, outRead := old.outRead, statusMirror := old.statusMirror, apertures := old.apertures
    ideWait := f != 0 && (s.cfg (f - 1)).prot && old.ide && !new.ide }

/-- KNOT operation of an entry (R544). -/
def entryKnotOp (e : SqEntry) : Nat := fld e.arg 3 0
/-- Entries whose effect is unknown at failover (R562): KNOT ARRIVE, ADD and RESET, and IMAGE. -/
def effectUnknown (e : SqEntry) : Bool := (e.op == 0x06 && entryKnotOp e != 3) || e.op == 0x05

/-- Entries fetched and not completed, as failover handles them (R562). -/
def failEntries (s : State) : State :=
  let s := s.updIo (fun x => { x with knotRetry := [], knots := x.knots.filter (fun k => entryKnotOp k.2.2.2 == 3) })
  let s := s.hem.fns.foldl (fun s fx => fx.2.rings.foldl (fun s rx =>
    let lost := (rx.2.started.map (·.1) ++ rx.2.waiting).filter effectUnknown
    let s := s.updRing fx.1 rx.1 (fun x => { x with
      started := x.started.filter (fun e => !effectUnknown e.1), waiting := x.waiting.filter (fun e => !effectUnknown e) })
    lost.foldl (fun s e => complete s fx.1 rx.1 e 0x06000003 0) s) s) s
  restartCopies (s.io.knots.foldl (fun s k =>
    hemKnot s (ringPart k.2.1 (s.ring k.2.1 k.2.2.1)) 3 (fld k.2.2.2.arg 31 16) k.1 k.2.2.2.len.toNat) s)

/-- Failover from the active Host hem to the standby, where the standby's link is up (R560 to R563). -/
def failover (s : State) : State :=
  let other := if s.stw.hostB then s.hemA else s.hemB
  if !other.linkUp || other.dead then s
  else
    let ps := (List.range 16).filter (fun p => (s.part p).state == .running && hostEnds s p)
    let s := ps.foldl undoStep s
    let old := s.hem
    let fns := (List.range 17).foldl (fun t f => Table.put t f (carryFn s f (old.fn f) (other.fn f))) other.fns
    let old := { old with role := if old.linkUp && !old.dead then 2 else 0, failover := false }
    let other := { other with fns := fns, role := 1, failover := false }
    let s := if s.stw.hostB then { s with hemB := old, hemA := other } else { s with hemA := old, hemB := other }
    let s := { s with stw := { s.stw with hostB := !s.stw.hostB } }
    let s := (List.range 17).foldl (fun s f => if f = 0 then s.raiseVector 0 34 else if (s.fn f).enabled then s.raiseVector f 10 else s) s
    let s := failEntries s
    (ps.foldl (fun s p => restart s p true) s).journalled

/-- What the loss of a hem's last mesh port brings: failover for the active Host hem, its packages for a Bolt hem (R435, R560). -/
def hemPortLost (s : State) (r : NodeId) (port : Nat) : State :=
  match hemAt r port with
  | none => s
  | some (h, _) =>
    if !(hemUp s h).isEmpty then s
    else if h = hostHemAt s then failover s
    else boltOut s h (hemPackages h)

end Sys2Proof.Machine
end

