-- ==== Sys2Proof/Machine/Links.lean ====
section
/-! DEFINITION. The link layer of a router port: flits, refusals, loss and retraining of links (R356 to R360, R391, R402, R407, R674). -/

namespace Sys2Proof.Machine
open Sys2Proof

/-- A mesh or hem port of a router (R352). -/
def linkOk (r : NodeId) (port : Nat) : Bool := nodeExists r && decide (port < 4) && portLeads r port

/-- A link lost at one end, with what its hem then does (R360, R435, R560). -/
def loseLink (s : State) (r : NodeId) (port : Nat) : State :=
  if ((s.router r).port port).state ≠ 1 then s else hemPortLost (linkDown s r port) r port

/-- Flits acknowledged up to a sequence number leave the replay buffer (R358). -/
def ackFlits (l : List SentFlit) (seq : Nat) : List SentFlit :=
  match l.findIdx? (fun f => f.fseq == seq) with
  | some i => l.drop (i + 1)
  | none => l

/-- A NAK at the sender (R359, R360): retransmission from that FSEQ; the eighth refusal of one flit in a row takes the link down. -/
def nakFlit (s : State) (r : NodeId) (port seq : Nat) : State :=
  let q := (s.router r).port port
  match q.replay.find? (fun f => f.fseq == seq) with
  | none => s
  | some f =>
    let s := s.updPort r port (fun q => { q with
      retries := satAdd q.retries 1
      replay := q.replay.map (fun x => if x.fseq = seq then { x with refused := x.refused + 1 } else x) })
    if 8 ≤ f.refused + 1 then loseLink s r port else s

/-- A flit's parity fails in the input buffer: its packet is aborted (R391, R402). -/
def parityAbort (s : State) (r : NodeId) (pid : Nat) : State :=
  let s := s.updRouter r (fun x => { x with badPackets := satAdd x.badPackets 1, abortedPackets := satAdd x.abortedPackets 1 })
  updPacket s pid (fun k => { k with aborted := true })

/-- FLIT_RECEIVE (R356 to R359, R402): CRC and FSEQ decide whether the flit is taken; its sideband acknowledges and returns room. -/
def execFlitReceive (r : NodeId) (port : Nat) (f : Flit) (crcOk parityOk : Bool) (s : State) : Res :=
  if !linkOk r port then .fault .noSuchUnit
  else
    let q := (s.router r).port port
    let nak (s : State) : State := s.updPort r port (fun q => { q with nakked := true, crcErrors := satAdd q.crcErrors 1 })
    .next (
      if q.state ≠ 1 then s
      else if !crcOk then nak s
      else
        let s := s.updPort r port (fun q => { q with
          used := Table.put q.used f.crVc (Table.get 0 q.used f.crVc - f.crCnt)
          replay := if f.ack = 1 then ackFlits q.replay f.ackSeq.toNat else q.replay })
        let s := if f.ack = 2 then nakFlit s r port f.ackSeq.toNat else s
        if f.null || ((s.router r).port port).state != 1 then s
        else if f.fseq.toNat ≠ q.rxSeq then (if q.nakked then s else nak s)
        else
          let s := s.updPort r port (fun q => { q with
            rxSeq := (q.rxSeq + 1) % 256, nakked := false
            openPkt := if f.pos = 0 then Table.put q.openPkt f.vc f.pid else if f.pos = 2 then Table.del q.openPkt f.vc else q.openPkt })
          if parityOk then s else parityAbort s r f.pid)

/-- NAK_RECEIVE (R359, R360). -/
def execNakReceive (r : NodeId) (port : Nat) (fseq : Byte) (s : State) : Res :=
  if !linkOk r port then .fault .noSuchUnit
  else .next (if ((s.router r).port port).state = 1 then nakFlit s r port fseq.toNat else s)

/-- LINK_IDLE_TIMEOUT (R360): no valid flit for 1,024 fabric cycles. -/
def execLinkIdleTimeout (r : NodeId) (port : Nat) (s : State) : Res :=
  if !linkOk r port then .fault .noSuchUnit else .next (loseLink s r port)

/-- WARDEN_LINK_DOWN (R360). -/
def execWardenLinkDown (r : NodeId) (port : Nat) (s : State) : Res :=
  if !linkOk r port then .fault .noSuchUnit else .next (loseLink s r port)

/-- A port brought up afresh. -/
def freshPort (q : Port) : Port := { q with state := 1, replay := [], nakked := false, openPkt := [], used := [], txSeq := 0, rxSeq := 0 }

/-- LINK_RETRAIN (R407, R674): 1 ms after the link went down. It is held when training fails, or at three downs within 3,600 s. -/
def execLinkRetrain (r : NodeId) (port : Nat) (trained : Bool) (s : State) : Res :=
  if !linkOk r port then .fault .noSuchUnit
  else
    let q := (s.router r).port port
    let ends : List (NodeId × Nat) := (r, port) :: (match neighbour r port with | some m => [(m, oppPort port)] | none => [])
    let dead := ends.any (fun e => (s.router e.1).dead)
    let often := decide (3 ≤ (q.downs.filter (fun t => decide (s.clock < t + 3600 * msCycles 1000))).length)
    .next (
      if q.state ≠ 0 ∨ q.linkHeld ∨ dead then s
      else if !trained || often then
        let s := ends.foldl (fun s e => s.updPort e.1 e.2 (fun q => { q with linkHeld := true, state := 0 })) s
        let e := { s.eventAt 12 0x00 r with port := port }
        let s := s.updMap (ends.map (·.1)) true (fun n x =>
          (ends.filter (fun e => e.1 == n)).foldl (fun (x : MapEntry) e => { x with links := Table.put x.links e.2 3 }) x)
        s.note e true r false
      else
        let s := ends.foldl (fun s e => s.updPort e.1 e.2 freshPort) s
        let s := s.updMap (ends.map (·.1)) false (fun n x =>
          (ends.filter (fun e => e.1 == n)).foldl (fun (x : MapEntry) e => { x with links := Table.del x.links e.2 }) x)
        restoreHostMap s 16)

end Sys2Proof.Machine
end

