-- ==== Sys2Proof/Machine/Flags.lean ====
section
/-! DEFINITION. The words that the status and control registers read as, and what a write to one does (R110, R151, R208, R209, R258, R292,
R316, R397, R539, R628). -/

namespace Sys2Proof.Machine
open Sys2Proof

/-- MC_ID and VC_ID (R110, R151). -/
def idWord (n : NodeId) : U64 := mkWord 64 [(40, (kindOf n).code), (32, 0xB0), (16, panelOf n), (8, nx n), (0, ny n)]

/-- STATE of MC_STATUS (R110). -/
def mState (nd : Node) : Nat :=
  if nd.fenced then 5
  else if nd.halted then 4
  else if !nd.mc.run then 0
  else if nd.mc.drains.any (·.waiting) then 3
  else
    let due := nd.mc.window.filter (fun c => !c.issued && c.pass.isSome)
    if !due.isEmpty && nd.mc.flights.isEmpty && !due.any (eligible nd) then 2 else 1
/-- STATE of VC_STATUS (R151). -/
def vState (nd : Node) : Nat :=
  if nd.fenced then 5
  else if nd.halted then 4
  else if !nd.core.run then 0
  else match nd.core.blocked with
    | some (.send ..) | some (.recv ..) | some (.recvAny ..) => 2
    | some (.knotWait _) | some (.knotPost ..) => 3
    | _ => 1

/-- MC_STATUS (R110). -/
def mStatus (nd : Node) : U64 :=
  let m := nd.mc
  mkWord 64 [(32, match m.window with | c :: _ => c.idx | [] => m.fetch),
    (28, (List.range 4).foldl (fun a g => a + (if (m.group g).isOpen then 2 ^ g else 0)) 0),
    (26, Table.get 0 m.planes 1), (24, Table.get 0 m.planes 0), (23, b2n (Table.has m.planes 1)), (22, b2n (Table.has m.planes 0)),
    (21, b2n m.shadow), (12, m.ftqUsed), (8, m.rowRep.length), (4, m.colRep.length), (1, mState nd)]

/-- A repair register over spares k to k + 3 (R110). -/
def repWord (rep : Table Nat) (k : Nat) : U64 :=
  mkWord 64 ((List.range 4).flatMap (fun i => match Table.find? rep (k + i) with | some lane => [(16 * i + 15, 1), (16 * i, lane)] | none => []))

/-- A counter read as a 64-bit register. -/
def cnt {w : Nat} (c : BitVec w) : U64 := BitVec.ofNat 64 c.toNat

/-- M core registers (R110). -/
def mReg (n : NodeId) (nd : Node) (off : Nat) : Option U64 :=
  let m := nd.mc
  match off with
  | 0x000 => some (idWord n)
  | 0x008 => some (mkWord 64 [(7, b2n m.sweepEn), (5, m.prio), (0, b2n m.run)])
  | 0x010 => some (mStatus nd)
  | 0x018 => some nd.fault
  | 0x020 => some nd.faultLoc
  | 0x028 => some (repWord m.rowRep 0)
  | 0x030 => some (repWord m.rowRep 4)
  | 0x038 => some (repWord m.colRep 0)
  | 0x040 => some (repWord m.colRep 4)
  | 0x048 => some (mkWord 64 [(16, m.sweepK), (0, m.sweepJ)])
  | 0x100 => some (cnt m.prodTrunc)
  | 0x108 => some (cnt m.anchorClamp)
  | 0x110 => some (cnt m.ppadTrunc)
  | 0x118 => some (cnt m.drainOvf)
  | 0x120 => some (cnt m.drainNan)
  | 0x128 => some (cnt m.ckMismatch)
  | 0x130 => some (cnt m.ckBounded)
  | 0x138 => some (cnt m.ckUnchecked)
  | 0x140 => some (cnt m.sweepMismatch)
  | 0x148 => some m.preload
  | 0x150 => some m.stream
  | 0x158 => some m.drainCycles
  | 0x160 => some (cnt m.stallOperand)
  | 0x168 => some (cnt m.stallFtq)
  | 0x170 => some (cnt m.tilesReleased)
  | 0x178 => some m.pspill
  | _ => none

/-- V and F core registers (R151); those marked F read as zero in a V core. -/
def vReg (n : NodeId) (nd : Node) (off : Nat) : Option U64 :=
  let c := nd.core
  let f (x : U64) : U64 := if kindOf n = .f then x else 0
  match off with
  | 0x000 => some (idWord n)
  | 0x008 => some (mkWord 64 [(0, b2n c.run)])
  | 0x010 => some (mkWord 64 [(32, c.pc.toNat), (1, vState nd)])
  | 0x018 => some nd.fault
  | 0x020 => some nd.faultLoc
  | 0x100 => some (cnt c.satEvents)
  | 0x108 => some (cnt c.residue)
  | 0x110 => some (f (cnt c.fnCompare))
  | 0x118 => some (f (cnt c.fnRange))
  | 0x120 => some (f (cnt c.kclamp))
  | 0x128 => some (f (cnt c.degen))
  | 0x130 => some c.issueCycles
  | 0x138 => some c.retired
  | _ => none

/-- EP_STATE (R209). -/
def epState (out : Bool) (e : Ep) : U64 :=
  mkWord 64 [(62, fld e.desc 103 102), (61, b2n e.broken), (60, b2n e.letout), (58, if out then outCtag e.desc else inCtag e.desc), (57, b2n e.blocked),
    (36, e.ptr / 64), (16, if out && outMode e.desc == 2 then e.credit else e.credit / 64), (0, e.seq.toNat)]
/-- A register of an endpoint block (R209). -/
def epReg (out : Bool) (e : Ep) (k : Nat) : U64 :=
  match k with
  | 0 => epState out e
  | 1 => e.msgs
  | 2 => e.bytes
  | 3 => e.stall
  | 4 => cnt e.tokens
  | 5 => cnt e.skips
  | 6 => cnt e.letouts
  | _ => 0
/-- A node's endpoint blocks (R208). -/
def epBlockReg (n : NodeId) (nd : Node) (off : Nat) : Option U64 :=
  let i := (off - 0x2000) / 64
  let k := off % 64 / 8
  match kindOf n with
  | .l =>
    if i < 256 then some (if outMode (nd.outEp i).desc != 0 then epReg true (nd.outEp i) k else epReg false (nd.inEp i) k) else none
  | .c => none
  | _ => if i < 64 then some (epReg false (nd.inEp i) k) else if i < 128 then some (epReg true (nd.outEp (i - 64)) k) else none

/-- One word of FILL_TAGS (R208). -/
def fillWord (p : Pad) (k : Nat) : U64 :=
  mkWord 64 ((List.range 32).flatMap (fun i => [(2 * i + 1, b2n (p.tagged.getLsbD (32 * k + i))), (2 * i, b2n (p.filled.getLsbD (32 * k + i)))]))

/-- Pad, tag and endpoint registers (R208). -/
def padReg (n : NodeId) (nd : Node) (off : Nat) : Option U64 :=
  let p := nd.pad
  if 0x1100 ≤ off ∧ off < 0x1280 then some (p.owner ((off - 0x1100) / 8))
  else if 0x2000 ≤ off ∧ off < 0x6000 then epBlockReg n nd off
  else if 0x6000 ≤ off ∧ off < 0x6C00 then some (fillWord p ((off - 0x6000) / 8))
  else
    match off with
    | 0x1000 => some (mkWord 64 [(0, b2n p.checked)])
    | 0x1008 => some p.parityLoc
    | 0x1010 => some (cnt p.parityErrors)
    | 0x1018 => some (cnt p.rowsRetired)
    | 0x1020 => some p.narrowForced
    | 0x1028 => some (cnt p.rbfUnchecked)
    | 0x1030 => some (cnt p.obdUnchecked)
    | 0x1038 => some (cnt p.ownerRefused)
    | 0x1040 => some (cnt p.recvanyCount)
    | 0x1048 => some (cnt p.knotRetries)
    | 0x1050 => some p.fillFaultLoc
    | _ => none

/-- STATE codes of PAT_STATE (R258). -/
def PatPhase.code : PatPhase → Nat
  | .unloaded => 0 | .loaded => 1 | .armed => 2 | .inStep => 3 | .waitCommit => 4 | .stopped => 5 | .scanning => 6
/-- PAT_STATE (R258). -/
def patState (nd : Node) : U64 :=
  let p := nd.pat
  let all := (nd.ins.filter (fun e => inMode e.2.desc != 0 && !e.2.nextOnly)).all (fun e => p.isSealed e.1)
  mkWord 64 [(36, p.loaded.foldl (fun a k => a + 2 ^ k) 0 % 16), (34, p.home), (32, p.active), (30, p.ctag), (28, p.nextCtag), (27, b2n p.nextValid),
    (26, b2n p.seamOrder), (25, b2n all), (24, b2n p.replayPending), (0, p.phase.code)]
/-- STEP_NUM (R258). -/
def stepNum (p : Pat) : U64 := mkWord 64 [(32, p.committed.toNat), (0, p.current.toNat)]
/-- SLOT_s (R258); a slot without a loaded pattern shows nothing of one. -/
def slotWord (p : Pat) (k : Nat) : U64 :=
  if p.loaded.contains k then mkWord 64 [(63, 1), (58, p.slotCtag k), (57, b2n (p.slotHome k)), (32, p.progLen k), (0, p.logical k)] else 0
/-- Pattern and step registers (R258). -/
def patReg (n : NodeId) (nd : Node) (off : Nat) : Option U64 :=
  let p := nd.pat
  if kindOf n = .c then none
  else if 0x7080 ≤ off ∧ off < 0x7100 then some (cnt (Table.get 0 p.rates ((off - 0x7080) / 8)))
  else if 0x7100 ≤ off ∧ off < 0x7120 then some (slotWord p ((off - 0x7100) / 8))
  else if 0x7180 ≤ off ∧ off < (if kindOf n = .l then 0x71A0 else 0x7188) then
    some (BitVec.ofNat 64 (p.sealed.toNat >>> (64 * ((off - 0x7180) / 8))))
  else
    match off with
    | 0x7000 => some (patState nd)
    | 0x7008 => some (stepNum p)
    | 0x7010 => some p.stepWork
    | 0x7018 => some p.stepInstr
    | 0x7020 => some (cnt p.replays)
    | 0x7028 => some (cnt p.seamDiscards)
    | 0x7030 => some p.commitWait
    | 0x7038 => some (cnt p.slotSwitches)
    | 0x7040 => some p.seamWait
    | _ => none

/-- STATE of LN_STATUS (R316). -/
def lState (s : State) (n : NodeId) : Nat :=
  let nd := s.node n
  if nd.fenced then 5
  else if nd.halted then 4
  else if nd.pat.phase = .waitCommit then 2
  else if (s.part (nd.part.getD 16)).mir.restoring.any (fun r => r.1 == lIndex n) then 3
  else if nd.pat.phase = .inStep then 1 else 0
/-- The 64 bytes of a bobbin table entry (R292). -/
def bobbinBytes (b : Bobbin) : List Byte :=
  leBytes 1 b.state ++ leBytes 1 b.part ++ [b.flags] ++ leBytes 1 b.tpp ++ leBytes 2 b.planes ++ leBytes 2 b.keyEpoch ++ leBytes 4 b.session.toNat ++
  leBytes 4 b.length ++ leBytes 4 b.end0 ++ leBytes 4 b.end1 ++ leBytes 4 b.list ++ leBytes 4 b.listCap ++ leBytes 4 b.linPages ++
  leBytes 4 b.boltPages ++ leBytes 8 b.aux ++ leBytes 4 b.auxLen ++ leBytes 4 b.lastStep ++ List.replicate 8 0
/-- Knot k as it reads (R316). -/
def knotWord (k : Knot) : U64 := mkWord 64 [(63, b2n k.alloc), (62, b2n k.sat), (56, k.part), (0, k.count.toNat)]
/-- L node registers and tables (R316). -/
def lReg (s : State) (n : NodeId) (off : Nat) : Option U64 :=
  let nd := s.node n
  let x := nd.ln
  if 0x40000 ≤ off ∧ off < 0x80000 then
    some (BitVec.ofNat 64 (leNat (((bobbinBytes (x.bobbin ((off - 0x40000) / 64))).drop (off % 64)).take 8)))
  else if 0x80000 ≤ off ∧ off < 0x80800 then some (knotWord (Table.get {} x.knots ((off - 0x80000) / 8)))
  else if 0xA0000 ≤ off ∧ off < 0xA4000 then
    let w := (off - 0xA0000) / 8
    some (mkWord 64 ((x.poison.filter (fun p => p / 64 == w)).map (fun p => (p % 64, 1))))
  else
    match off with
    | 0x8000 => some (mkWord 64 [(37, (x.bobbins.filter (fun b => b.2.state != 0)).length), (19, x.frameCount - x.framesUsed.length),
        (13, min 32 (((x.promos.map (·.pf)).filter (· != 0)).eraseDups).length), (1, lState s n)])
    | 0x8008 => some nd.fault
    | 0x8010 => some nd.faultLoc
    | 0x8018 => some (mkWord 64 [(36, x.frameFirst), (0, x.frameCount)])
    | 0x8020 => some (mkWord 64 [(32, x.boltFirst), (0, x.boltCount)])
    | 0x8028 => some (cnt x.eccCorrected)
    | 0x8030 => some (cnt x.eccUncorrected)
    | 0x8038 => some (cnt x.pagesPoisoned)
    | 0x8040 => some (cnt x.scrubPasses)
    | 0x8048 => some (cnt x.boltMacFail)
    | 0x8050 => some (cnt x.boltOdecc)
    | 0x8058 => some x.pfPromoted
    | 0x8060 => some x.pfDemoted
    | 0x8068 => some (cnt x.pfMiss)
    | 0x8070 => some x.pfStall
    | 0x8078 => some (cnt x.pfDropped)
    | 0x8080 => some x.cacheHits
    | 0x8088 => some x.cacheMisses
    | 0x8090 => some (cnt x.refused)
    | 0x8098 => some (cnt x.lost)
    | _ => none

/-- Kind of seam crossing of a port (R384, R397): 0 within a panel, 1 mesochronous, 2 or 3 at 2:1 with this side fast or slow. -/
def seamKind (s : State) (r : NodeId) (p : Nat) : Nat :=
  match neighbour r p with
  | none => 0
  | some q =>
    let a := (s.panel (panelOf r)).fabric
    let b := (s.panel (panelOf q)).fabric
    if panelOf r = panelOf q then 0 else if a = b then 1 else if a < b then 2 else 3
/-- RT_LINK (R397). -/
def rtLink (s : State) (r : NodeId) : U64 :=
  let nd := s.node r
  mkWord 64 ([(21, b2n nd.parked), (20, b2n (nd.fenced || nd.resetting))] ++
    (List.range 5).flatMap (fun p => let q := (s.router r).port p; [(4 * p + 2, q.state), (4 * p, seamKind s r p)]))
/-- RT_BUDGET (R397). -/
def budgetWord (b : Budget) : U64 := mkWord 64 [(32, b.tokens), (29, b2n b.hard), (16, b.cap), (0, b.rate)]
/-- A port block's registers, in a boundary router (R397). -/
def portBlockReg (q : Port) (off : Nat) : Option U64 :=
  if off < 0x40 then some (Table.get 0 q.flits (off / 8))
  else if off < 0x80 then some (Table.get 0 q.stalls ((off - 0x40) / 8))
  else if off = 0x80 then some (mkWord 64 ((List.range 8).map (fun v => (8 * v, Table.get 0 q.maxDepth v))))
  else if off = 0x88 then some q.packets
  else none
/-- Router registers (R397). The table puts both detour entry 32 and HOST_PORT_MAP at 0xC_0A00; the map is what reads there (log 46). -/
def rtReg (s : State) (r : NodeId) (off : Nat) : Option U64 :=
  let x := s.router r
  let o := off - 0xC0000
  if off < 0xC0000 then none
  else if 0x40 ≤ o ∧ o < 0x68 then some (cnt (x.port ((o - 0x40) / 8)).crcErrors)
  else if 0x80 ≤ o ∧ o < 0xA8 then some (cnt (x.port ((o - 0x80) / 8)).retries)
  else if 0x200 ≤ o ∧ o < 0x228 then
    some (mkWord 64 ((List.range 8).map (fun v => (4 * v, Table.get 0 (x.port ((o - 0x200) / 8)).cong v))))
  else if 0x400 ≤ o ∧ o < 0x540 then some (budgetWord (Table.get {} (x.port ((o - 0x400) / 64)).budgets ((o - 0x400) / 8 % 8)))
  else if 0x800 ≤ o ∧ o < 0x888 then some (mkWord 64 ((List.range 16).map (fun t => (4 * t, Table.get 0 x.map (16 * ((o - 0x800) / 8) + t)))))
  else if o = 0xA00 then some x.hostMap
  else if 0x900 ≤ o ∧ o < 0xB00 then some (Table.get 0 x.detour ((o - 0x900) / 8))
  else if 0x1000 ≤ o ∧ o < 0x1500 ∧ isBoundary r then portBlockReg (x.port ((o - 0x1000) / 0x100)) (o % 0x100)
  else
    match o with
    | 0x000 => some (rtLink s r)
    | 0x008 => some (BitVec.ofNat 64 x.window)
    | 0x100 => some (cnt x.badPackets)
    | 0x108 => some (cnt x.fencedAbsorbed)
    | 0x110 => some (cnt x.nacksSent)
    | 0x118 => some (cnt x.linkdownDiscards)
    | 0x120 => some (cnt x.abortedPackets)
    | 0x128 => some (cnt x.ctrlOver)
    | _ => none

/-- A register of a node's configuration window, by its offset, a multiple of 8; none where no register lies. -/
def nodeReg (s : State) (n : NodeId) (off : Nat) : Option U64 :=
  let nd := s.node n
  if 0xC0000 ≤ off then rtReg s n off
  else if off < 0x1000 then
    match kindOf n with
    | .m => mReg n nd off
    | .v | .f => vReg n nd off
    | _ => none
  else if off < 0x7000 then padReg n nd off
  else if off < 0x8000 then patReg n nd off
  else if kindOf n = .l then lReg s n off
  else none

/-- A register word written, where the register is RW or W1C; every other register is unchanged. -/
def writeNodeReg (nd : Node) (n : NodeId) (off : Nat) (v : U64) : Node :=
  match kindOf n, off with
  | .m, 0x008 => { nd with mc := { nd.mc with sweepEn := bit v 7, prio := fld v 6 5, run := bit v 0 } }
  | .v, 0x008 | .f, 0x008 => { nd with core := { nd.core with run := bit v 0 } }
  | .m, 0x018 | .v, 0x018 | .f, 0x018 | .l, 0x8008 => if bit v 63 then { nd with fault := 0, faultLoc := 0 } else nd
  | _, 0x1000 => { nd with pad := { nd.pad with checked := bit v 0 } }
  | _, 0x1008 => if bit v 63 then { nd with pad := { nd.pad with parityLoc := 0 } } else nd
  | _, 0x1050 => if bit v 63 then { nd with pad := { nd.pad with fillFaultLoc := 0 } } else nd
  | _, _ => nd

/-- SP_STATUS (R628). -/
def spStatus (s : State) (k : Nat) : U64 :=
  let x := s.spPort k
  mkWord 64 [(48, x.peerAddr), (40, x.lanesFailed), (32, x.lastEvent), (24, x.polarity), (23, b2n x.orderFixed),
    (22, b2n (twinPorts.contains k && s.twin.state == twPaired)), (2, x.width), (0, x.state)]
/-- A register of a Spakan hem's port block (R628). -/
def spReg (s : State) (h off : Nat) : Option U64 :=
  match spakanHems.findIdx? (· == h) with
  | none => none
  | some i =>
    if off < 0x08000000 ∨ 0x08001000 ≤ off then none
    else
      let k := 8 * i + (off - 0x08000000) / 0x200
      let x := s.spPort k
      let o := off % 0x200
      if 0x40 ≤ o ∧ o < 0xC0 then some (if o % 16 = 0 then Table.get 0 x.flits ((o - 0x40) / 16) else Table.get 0 x.stalls ((o - 0x40) / 16))
      else
        match o with
        | 0x000 => some (spStatus s k)
        | 0x100 => some x.fecCorrected
        | 0x108 => some (cnt x.fecUncorrected)
        | 0x110 => some (cnt x.crcErrors)
        | 0x118 => some (cnt x.retries)
        | 0x120 => some (cnt x.ttlDrops)
        | 0x128 => some (cnt x.relayDrops)
        | 0x130 => some (cnt x.relayExpired)
        | 0x138 => some (cnt x.relayNopath)
        | 0x140 => some (cnt x.dupFrames)
        | 0x148 => some (cnt x.tagFails)
        | 0x150 => some (cnt x.badFrames)
        | _ => none

/-- Bytes [off, off + n) of a window of registers; none when some byte lies in no register. -/
def regBytes (reg : Nat → Option U64) (off n : Nat) : Option (List Byte) :=
  if n = 0 then some []
  else
    (rangeFrom (off / 8) ((off + n - 1) / 8 - off / 8 + 1)).foldr (fun w (acc : Option (List Byte)) =>
      match reg (8 * w), acc with | some v, some t => some (leBytes 8 v.toNat ++ t) | _, _ => none) (some [])
    |>.map (fun l => (l.drop (off % 8)).take n)

end Sys2Proof.Machine
end

