-- ==== Sys2Proof/Machine/ModMem.lean ====
section
/-! DEFINITION. Module memory requests at the place that serves them, partition translation caches and unmapping (R259 to R271, R364). -/

namespace Sys2Proof.Machine
open Sys2Proof

/-- What a module memory request gave: the state after it, its STATUS (R364) and its data. -/
structure Served2 where
  s : State
  status : Nat
  data : List Byte

/-- The general page of a partition that holds a Lining byte: partition and partition address (R266, R268). -/
def linOwner (s : State) (l off : Nat) : Option (Nat × Nat) :=
  (List.range 16).findSome? (fun p => (s.part p).pl.ptt.findSome? (fun e =>
    if !pttValid e.2 || pttBolt e.2 then none
    else
      let ms := (s.cfg p).stripe (pttSet e.2)
      match ms.findIdx? (· == l) with
      | none => none
      | some i =>
        let j := (off / 4096 - pttOffset e.2) * ms.length + i
        if pttOffset e.2 ≤ off / 4096 ∧ j < 512 then some (p, e.1 * 0x200000 + j * 4096 + off % 4096) else none))
/-- The page of a partition that holds a Bolt byte (R266). -/
def boltOwner (s : State) (o : Nat) : Option (Nat × Nat × U64) :=
  (List.range 16).findSome? (fun p => (s.part p).pl.ptt.findSome? (fun e =>
    if pttValid e.2 && pttBolt e.2 && pttBpage e.2 == o / 0x200000 then some (p, e.1 * 0x200000 + o % 0x200000, e.2) else none))

/-- Bytes [a, a + n) of the Lining region of L node l as stored; one in a poisoned page gives STATUS POISON (R276, R364). -/
def readLining (s : State) (l off n : Nat) (struck : Option Nat) : Served2 :=
  if 0x200000000 < off + n ∨ (s.node (lNode l)).fenced then ⟨s, 0x1B, List.replicate n 0⟩
  else
    let s := linStrikeIn s (linBase l + off) n struck
    ⟨s, if linPoisoned s (linBase l + off) n then 0x1E else 0, linRaw s (linBase l + off) n⟩

/-- Bolt bytes of one 4 KiB page read by L node l: verified line by line, and given as stored, so that a protected page stays ciphertext; a
cached page of an unprotected partition is read through its line (R282, R286, R313, R556). -/
def readBoltPage (s : State) (l o n : Nat) (tagOk : Bool) : Served2 :=
  let own := boltOwner s o
  let prot := match own with | some (p, _, _) => (s.cfg p).prot | none => false
  let cached := match own with | some (p, pa, e) => !prot && pttCache e && (cacheAt s p ((pa - 0x20000000000) / 4096)).isSome | none => false
  if !tagOk then ⟨boltFail s l (o / 64), if boltLive s o then 0x1F else 0x1E, List.replicate n 0⟩
  else
    match own, cached with
    | some (p, pa, _), true =>
      let r := partPiece s p pa n
      ⟨r.s, if r.poison then 0x1F else 0, r.data⟩
    | _, _ =>
      let v := match own with | some (_, _, e) => pttVctr e | none => 0
      let r := boltLines s l prot v o n
      let zero := prot && vctrGet s v o == 0
      ⟨r.1, if r.2.2 then 0x1F else 0, if zero then List.replicate n 0 else s.bolt.bytes o n⟩
/-- Bolt bytes read by L node l. -/
def readBolt (s : State) (l o n : Nat) (tagOk : Bool) : Served2 :=
  (pieces o n).foldl (fun (r : Served2) x =>
    let q := readBoltPage r.s l x.1 x.2 tagOk
    ⟨q.s, if r.status = 0 then q.status else r.status, r.data ++ q.data⟩) ⟨s, 0, []⟩

/-- Bytes written to an L node's own region: a general page through its partition's translation and key, anything else as it is (R271, R284). -/
def writeLiningPiece (s : State) (l off : Nat) (bs : List Byte) : State × Nat :=
  match linOwner s l off with
  | some (p, pa) => if mapped s p pa bs.length true then (partWrite s p pa bs, 0) else (s, 0x1B)
  | none => (linWrite s none (linBase l + off) bs, 0)
/-- Bytes written to one 4 KiB Bolt page by L node l (R283, R286); a counter past its maximum refuses the write with VERSION_WRAP. -/
def writeBoltPage (s : State) (l o : Nat) (bs : List Byte) : State × Nat :=
  match boltOwner s o with
  | some (p, pa, e) =>
    if !mapped s p pa bs.length true then (s, 0x1B)
    else if (s.cfg p).prot && (boltPageWrite s l true (pttVctr e) (o / 4096 * 4096) []).isNone then (versionWrap s p l, 0x20)
    else (partWrite s p pa bs, 0)
  | none =>
    let r := boltPageRead s l false 0 (o / 4096 * 4096)
    match boltPageWrite r.1 l false 0 (o / 4096 * 4096) (r.2.1.take (o % 4096) ++ bs ++ r.2.1.drop (o % 4096 + bs.length)) with
    | some s => (s, 0)
    | none => (s, 0)
/-- Pieces of a write done in order; the first fault stops it. -/
def writePieces (w : State → Nat → List Byte → State × Nat) (s : State) (a : Nat) (bs : List Byte) : State × Nat :=
  let r := (pieces a bs.length).foldl (fun (r : State × Nat × List Byte) x =>
    if r.2.1 ≠ 0 then r else let q := w r.1 x.1 (r.2.2.take x.2); (q.1, q.2, r.2.2.drop x.2)) (s, 0, bs)
  (r.1, r.2.1)

/-- Some owner bank of a node is tagged protected (R163, R540). -/
def protOwner (nd : Node) : Bool := nd.pad.owners.any (fun e => bit e.2 16 && bit e.2 15)
/-- A range of a node's scratchpad touches a bank tagged protected. -/
def protBanks (nd : Node) (a n : Nat) : Bool := (rangeFrom (bankOf a) (bankOf (a + n - 1) - bankOf a + 1)).any (fun b => bit (nd.pad.owner b) 16 && bit (nd.pad.owner b) 15)

/-- Parts of a node window (R262). -/
inductive WindowPart where
  | pad (a : Nat)
  | regs (off : Nat)
  | slot (k off : Nat)
  | none
  deriving DecidableEq, Repr
/-- What a range of a node window names; a range that leaves its part names nothing. -/
def windowPart (n : NodeId) (off len : Nat) : WindowPart :=
  if off + len ≤ padBytes n then .pad off
  else if 0x8000000 ≤ off ∧ off + len ≤ 0x8100000 then .regs (off - 0x8000000)
  else if 0xC000000 ≤ off ∧ off + len ≤ 0xC040000 ∧ off / 65536 = (off + len - 1) / 65536 ∧ kindOf n ≠ .c then .slot ((off - 0xC000000) / 65536) (off % 65536)
  else .none

/-- Bytes of a node window (R262, R264, R540): of protected scratchpad and slots, zeros. -/
def readWindow (s : State) (n : NodeId) (off len : Nat) : Option (List Byte) :=
  let nd := s.node n
  if nd.fenced then none
  else match windowPart n off len with
    | .pad a => some (if protBanks nd a len then List.replicate len 0 else nd.pad.read a len)
    | .regs o => regBytes (nodeReg s n) o len
    | .slot k o => some (if protOwner nd then List.replicate len 0 else (nd.pat.image k).bytes o len)
    | .none => none
/-- Bytes written to a node window: scratchpad and slots unless protected, and whole register words. -/
def writeWindow (s : State) (n : NodeId) (off : Nat) (bs : List Byte) : State × Nat :=
  let nd := s.node n
  if nd.fenced then (s, 0x1B)
  else match windowPart n off bs.length with
    | .pad a => (if protBanks nd a bs.length then s else s.updNode n (fun d => { d with pad := d.pad.write a bs }), 0)
    | .regs o =>
      if (regBytes (nodeReg s n) o bs.length).isNone then (s, 0x1B)
      else if o % 8 ≠ 0 ∨ bs.length % 8 ≠ 0 then (s, 0)
      else
        ((chunks 8 (bs.length / 8) bs).zipIdx.foldl (fun s w => s.updNode n (fun d => writeNodeReg d n (o + 8 * w.2) (BitVec.ofNat 64 (leNat w.1)))) s, 0)
    | .slot k o => (if protOwner nd then s else
        s.updNode n (fun d => { d with pat := { d.pat with slots := Table.put d.pat.slots k ((d.pat.image k).write o bs) } }), 0)
    | .none => (s, 0x1B)

/-- A module memory read served at a place (R259, R264, R364). -/
def serveRead (s : State) (at' : Place) (a n : Nat) (struck : Option Nat) (tagOk : Bool) : Served2 :=
  let none' : Served2 := ⟨s, 0x1B, List.replicate n 0⟩
  match at', regionOf a with
  | .node m, .lining l off => if kindOf m = .l ∧ lIndex m = l then readLining s l off n struck else none'
  | .node m, .bolt .. => if kindOf m = .l ∧ a + n ≤ 0xA0000000000 then readBolt s (lIndex m) (a - 0x20000000000) n tagOk else none'
  | .hem h, .bolt p _ =>
    if (boltHem p).1 = h ∧ boltLive s (a - 0x20000000000) then ⟨s, 0, s.bolt.bytes (a - 0x20000000000) n⟩ else none'
  | .node m, .window k off => if m = k then (match readWindow s k off n with | some d => ⟨s, 0, d⟩ | none => none') else none'
  | .hem h, .hem k off => if h = k then (match regBytes (spReg s h) off n with | some d => ⟨s, 0, d⟩ | none => none') else none'
  | _, _ => none'
/-- A module memory write served at a place. A Bolt hem stores what its L node sends verbatim (R281). -/
def serveWrite (s : State) (at' : Place) (a : Nat) (bs : List Byte) : State × Nat :=
  match at', regionOf a with
  | .node m, .lining l off =>
    if kindOf m = .l ∧ lIndex m = l ∧ off + bs.length ≤ 0x200000000 then writePieces (fun s o b => writeLiningPiece s l o b) s off bs else (s, 0x1B)
  | .node m, .bolt .. =>
    if kindOf m = .l ∧ a + bs.length ≤ 0xA0000000000 then writePieces (fun s o b => writeBoltPage s (lIndex m) o b) s (a - 0x20000000000) bs else (s, 0x1B)
  | .hem h, .bolt p _ =>
    if (boltHem p).1 = h ∧ boltLive s (a - 0x20000000000) then ({ s with bolt := s.bolt.write (a - 0x20000000000) bs }, 0) else (s, 0x1B)
  | .node m, .window k off => if m = k then writeWindow s k off bs else (s, 0x1B)
  | .hem h, .hem k off => if h = k ∧ (regBytes (spReg s h) off bs.length).isSome then (s, 0) else (s, 0x1B)
  | _, _ => (s, 0x1B)

/-- READ_REQ (R364): answered with READ_RESP. `tagOk` is whether a Bolt line's tag fits. -/
def execReadReq (at' : Place) (struckWord : Option Nat) (tagOk : Bool) (s : State) : Res :=
  onPlace at' s (fun s =>
    match takeType s at' tyReadReq with
    | none => s
    | some (k, s) =>
      let r := serveRead s at' (mdAddr k.pay) (mdLen k.pay) struckWord tagOk
      sendReply r.s k.at' (answerDest k.route) k.route tyReadResp (memDesc (mdAddr k.pay) (mdTag k.pay) (mdLen k.pay) r.status) r.data)

/-- WRITE_REQ (R364): answered with WRITE_ACK. -/
def execWriteReq (at' : Place) (s : State) : Res :=
  onPlace at' s (fun s =>
    match takeType s at' tyWriteReq with
    | none => s
    | some (k, s) =>
      let r := serveWrite s at' (mdAddr k.pay) (k.data.take (mdLen k.pay))
      sendReply r.1 k.at' (answerDest k.route) k.route tyWriteAck (memDesc (mdAddr k.pay) (mdTag k.pay) (mdLen k.pay) r.2) [])

/-- An answer at its requester (R364): the active hem goes on with the copy it belongs to; a node has had the data already (log 51). -/
def memAnswer (at' : Place) (ty : Nat) (s : State) : State :=
  match takeType s at' ty with
  | none => s
  | some (k, s) => if at' = .hem (hostHemAt s) then copyAnswer s k else s
/-- READ_RESP (R364, R546). -/
def execReadResp (at' : Place) (s : State) : Res := onPlace at' s (memAnswer at' tyReadResp)
/-- WRITE_ACK (R364, R546). -/
def execWriteAck (at' : Place) (s : State) : Res := onPlace at' s (memAnswer at' tyWriteAck)

/-- The PTT entry of a page put into a cache of 1,024, the oldest leaving (R269). -/
def cachePtt (c : List (Nat × Nat)) (e : Nat × Nat) : List (Nat × Nat) := let d := c.filter (fun x => x != e) ++ [e]; d.drop (d.length - 1024)
/-- PTT_ENTRY_FETCHED (R269): the entry that an L node or a Host hem missed arrives. -/
def execPttEntryFetched (at' : Place) (p page : Nat) (s : State) : Res :=
  if 16 ≤ p then .fault .noSuchUnit
  else
    onPlace at' s (fun s =>
      if !pttValid (Table.get 0 (s.part p).pl.ptt page) || (s.part p).pl.unmapping.contains page then s
      else match at' with
        | .node n => if kindOf n = .l then s.updLn (lIndex n) (fun x => { x with pttCache := cachePtt x.pttCache (p, page) }) else s
        | .hem h => if h = hostHemAt s then s.updIo (fun x => { x with pttCache := cachePtt x.pttCache (p, page) }) else s)

/-- Module physical 4 KiB granules of a mapped page (R266, R268): its Lining addresses, or one Bolt range. -/
def pageGranules (s : State) (p : Nat) (e : U64) : List Nat :=
  let ms := (s.cfg p).stripe (pttSet e)
  if pttBolt e || ms.isEmpty then []
  else (List.range 512).map (fun j => linBase (nth 0 ms (j % ms.length)) + (pttOffset e + j / ms.length) * 4096)
/-- Release scrub of a mapped page (R270, R289). -/
def scrubPage (s : State) (p : Nat) (e : U64) : State :=
  if pttBolt e then scrubBolt s (pttBpage e * 0x200000) 0x200000 else (pageGranules s p e).foldl (fun s a => scrubLining s a 4096) s
/-- A module address lies in a mapped page. -/
def inPage (s : State) (p : Nat) (e : U64) (a : Nat) : Bool :=
  if pttBolt e then decide (0x20000000000 ≤ a) && (a - 0x20000000000) / 0x200000 == pttBpage e
  else (pageGranules s p e).contains (a / 4096 * 4096)
/-- A translated access, or a bobbin, still names the page (R270). -/
def pageNamed (s : State) (p page : Nat) (e : U64) : Bool :=
  s.flight.any (fun k => (rtType k.route == tyReadReq || rtType k.route == tyWriteReq) && inPage s p e (mdAddr k.pay)) ||
  ((s.cfg p).lnodes).any (fun l => (s.ln l).bobbins.any (fun b =>
    b.2.state != 0 && b.2.part == p &&
      ((b.2.aux != 0 && decide (b.2.aux < (page + 1) * 0x200000) && decide (page * 0x200000 < b.2.aux + b.2.auxLen)) ||
       (pttBolt e && (List.range b.2.listCap).any (fun i =>
          let x := ple s l b.2 i
          pleValid x && pleBslot x != 0 && (0x20000000000 + 4096 * pleBslot x) / 0x200000 == page)))))

/-- UNMAP (R270): translation of the page stops at once; when nothing names it any more, the caches forget it and it is scrubbed. It stays
unmapped until the partition is torn down (log 48). -/
def execUnmap (p page : Nat) (s : State) : Res :=
  if 16 ≤ p then .fault .noSuchUnit
  else
    let e := Table.get 0 (s.part p).pl.ptt page
    .next (
      if !pttValid e then s
      else
        let s := s.updPart p (fun x => { x with pl := { x.pl with unmapping := setIns x.pl.unmapping page } })
        if pageNamed s p page e then s
        else
          let drop (c : List (Nat × Nat)) : List (Nat × Nat) := c.filter (fun x => x != (p, page))
          let s := ((s.cfg p).lnodes).foldl (fun s l => s.updLn l (fun x => { x with pttCache := drop x.pttCache })) s
          let s := s.updIo (fun x => { x with pttCache := drop x.pttCache })
          let s := scrubPage s p e
          s.updPart p (fun x => { x with pl := { x.pl with ptt := Table.del x.pl.ptt page } }))

/-- Lining units below which an L node of a partition holds general pages: 256 MiB, or up to its frame pool (log 48). -/
def generalUnits (s : State) (p : Nat) : Nat :=
  ((s.cfg p).lnodes).foldl (fun g l => if (s.ln l).frameCount = 0 then g else min g (16 * (s.ln l).frameFirst)) 65536
/-- The first module Bolt page above every page that a partition maps. -/
def freeBpage (s : State) : Nat :=
  (List.range 16).foldl (fun b q => (s.part q).pl.ptt.foldl (fun b e => if pttBolt e.2 then max b (pttBpage e.2 + 1) else b) b) 0
/-- One 2 MiB page of a partition mapped, if it is not and has room: the spec gives the PTT's form and not when the steward fills it (log 48).
Lining page q lies over stripe set 0 from unit q × share up; a Bolt page takes the next free module page and a zeroed version counter block
above the general units of the lowest L node. -/
def mapPage (s : State) (p page : Nat) : State :=
  let x := (s.part p).pl
  match (s.cfg p).lnodes with
  | [] => s
  | l0 :: t =>
    let n := t.length + 1
    let share := (512 + n - 1) / n
    let g := generalUnits s p
    let put (e : U64) (s : State) : State := s.updPart p (fun x => { x with pl := { x.pl with ptt := Table.put x.pl.ptt page e } })
    if pttValid (Table.get 0 x.ptt page) || x.unmapping.contains page then s
    else if page < 0x100000 then
      if share * (page + 1) ≤ g then put (mkWord 64 [(63, 1), (61, 1), (37, share * page), (21, (s.part p).keys.epoch)]) s else s
    else if 0x500000 ≤ page then s
    else
      let base := linBase l0 / 2048 + 2 * g
      let used := (x.ptt.filter (fun e => pttBolt e.2)).map (fun e => pttVctr e.2)
      let v := ((rangeFrom base (used.length + 1)).find? (fun k => !used.contains k)).getD base
      let b := freeBpage s
      if 4194304 ≤ b then s
      else
        let s := { s with lining := s.lining.zero (2048 * v) 2048 }
        let u := (2048 * v - linBase l0) / 4096
        let s := s.updLn l0 (fun y => { y with ranges := if y.ranges.contains (u, 1) then y.ranges else y.ranges ++ [(u, 1)] })
        put (mkWord 64 [(63, 1), (62, 1), (61, 1), (39, b), (9, v)]) s
/-- The pages of [pa, pa + n) mapped. -/
def mapRange (s : State) (p pa n : Nat) : State :=
  if n = 0 then s else (rangeFrom (pa / 0x200000) ((pa + n - 1) / 0x200000 - pa / 0x200000 + 1)).foldl (fun s q => mapPage s p q) s
/-- The Bolt pools of a partition's L nodes mapped (R294, R316). -/
def mapPart (s : State) (p : Nat) : State :=
  ((s.cfg p).lnodes).foldl (fun s l => mapRange s p (0x20000000000 + 4096 * (s.ln l).boltFirst) (4096 * (s.ln l).boltCount)) s

/-- Everything a partition holds in the Lining and the Bolt scrubbed and given back (R289, R517): the regions of its L nodes, its mapped Bolt
pages, and the tables over them. -/
def scrubPart (s : State) (p : Nat) : State :=
  let s := (s.part p).pl.ptt.foldl (fun s e => if pttValid e.2 && pttBolt e.2 then scrubPage s p e.2 else s) s
  ((s.cfg p).lnodes).foldl (fun s l =>
    (scrubLining s (linBase l) 0x200000000).updLn l (fun x => { x with
      bobbins := [], framesUsed := [], boltUsed := [], ranges := [], poison := [], promos := [], demos := [], sealedPages := [], cache := [], pttCache := [] })) s

/-- RELEASE_SCRUB_COMPLETE (R289, R517, R574): the memory of a partition that is being unloaded has been overwritten: it is free, a protected
partition's keys are destroyed, and the partition is EMPTY. -/
def execReleaseScrubComplete (p : Nat) (s : State) : Res :=
  if 16 ≤ p then .fault .noSuchUnit
  else
    let x := s.part p
    .next (
      if x.state ≠ .resetting ∨ x.resetFor ≠ some 4 then s
      else
        let s := scrubPart s p
        let s := s.updPart p (fun x => { x with
          resetFor := none
          pl := { x.pl with image := none, digest := List.replicate 48 0, nextImage := none, region := [], ptt := [], unmapping := [] }
          keys := if (s.cfg p).prot then { kexPublic := x.keys.kexPublic } else x.keys })
        let s := ((s.cfg p).lnodes).foldl (fun s l => s.updLn l (fun d => { d with keyCur := none, keyPrev := none })) s
        setPart (mapPart s p) p .empty (some 0))

end Sys2Proof.Machine
end

