-- ==== Sys2Proof/Machine/Load.lean ====
section
/-! DEFINITION. Firmware and test kits loaded over the mesh (R468 to R472). -/

namespace Sys2Proof.Machine
open Sys2Proof

/-- A LOAD image that a node keeps: that of its own kind, and patrol signatures in V and F cores (R408, R469). -/
def keepsImage (n : NodeId) (image : Nat) : Bool :=
  match kindOf n, image with
  | .c, 1 => true
  | .v, 2 | .v, 6 => true
  | .f, 3 | .f, 6 => true
  | .m, 4 => true
  | .l, 5 => true
  | _, _ => false
/-- The chunks of an image, by its code (R469); what the patrol signatures take is in the packets alone. -/
def imageChunks (image chunks : Nat) : Nat := match image with | 1 => 4096 | 2 => 1024 | 3 => 1024 | 4 => 512 | 5 => 512 | _ => chunks

/-- The L node whose knot slot 0 is the load barrier (R472). -/
def barrierL (s : State) : Nat :=
  let goods (l : List Nat) : Option Nat := l.find? (fun i => s.good (lNode i))
  (goods (rangeFrom 18 6)).getD ((goods (List.range 252)).getD 18)
/-- The load barrier's knot. -/
def barrierKnot (s : State) : Nat := 256 * barrierL s

/-- A node's third failing digest (R217, R471): DEFECT with LOAD_DIGEST in bring-up, fenced after it. -/
def loadFails (s : State) (n : NodeId) : State :=
  if s.brg.phase = 0x0D then fenceNode s n 0x27 true
  else { s with brg := { s.brg with fails := s.brg.fails ++ [(n, 0x27)] } }

/-- A complete image is checked against its digest (R471): it is confirmed at the barrier's knot, sent again as a whole, or given up. -/
def checkLoad (s : State) (n : NodeId) (x : Loading) : State :=
  let put (y : Loading) (s : State) : State := s.updNode n (fun d => { d with load := d.load.map (fun z => if z.image = y.image then y else z) })
  match x.digest with
  | none => put x s
  | some dg =>
    if x.ok then put x s
    else if !(List.range x.chunks).all (fun c => x.got.contains c) then put { x with asked := (List.range x.chunks).filter (fun c => !x.got.contains c) } s
    else if sha384 (x.bytes.bytes 0 (256 * x.chunks)) = dg then
      let s := put { x with ok := true, asked := [] } s
      let k := barrierKnot s
      let s := s.setKnot k (let y := s.knot k; { y with count := satAdd y.count 1 })
      { s with brg := { s.brg with confirmed := setIns s.brg.confirmed n } }
    else if 2 ≤ x.attempt then loadFails (s.updNode n (fun d => { d with load := d.load.filter (fun z => z.image != x.image) })) n
    else put { x with attempt := x.attempt + 1, got := [], bytes := [], digest := none, asked := List.range x.chunks } s

/-- LOAD_CHUNK (R469 to R471): a chunk, or the digest chunk 0xFFFF_FFFF. A chunk of an earlier attempt is not kept. -/
def execLoadChunk (n : NodeId) (image attempt : Nat) (chunk : U32) (chunks : Nat) (data : List Byte) (s : State) : Res :=
  onNode [.m, .v, .f, .l, .c] n s (fun s =>
    if !keepsImage n image then s
    else
      let old := List.find? (fun (z : Loading) => z.image == image) (s.node n).load
      let fresh : Loading := ⟨image, attempt, imageChunks image chunks, [], [], none, [], false⟩
      let x := match old with | some z => if z.attempt < attempt then fresh else z | none => fresh
      let s := if old.isSome then s else s.updNode n (fun d => { d with load := d.load ++ [fresh] })
      if attempt < x.attempt then s
      else if chunk = 0xFFFFFFFF then checkLoad s n { x with digest := some (data.take 48) }
      else if x.chunks ≤ chunk.toNat then s
      else
        checkLoad s n { x with
          got := setIns x.got chunk.toNat
          asked := x.asked.filter (fun c => c != chunk.toNat)
          bytes := x.bytes.write (256 * chunk.toNat) ((data ++ List.replicate 256 0).take 256) })

/-- LOAD_CHUNK_TIMEOUT (R471): the warden reads the bitmap and the steward sends every missing chunk, the digest chunk with them. -/
def execLoadChunkTimeout (n : NodeId) (image : Nat) (s : State) : Res :=
  onNode [.m, .v, .f, .l, .c] n s (fun s =>
    s.updNode n (fun d => { d with load := d.load.map (fun z =>
      if z.image = image ∧ !z.ok then
        { z with asked := (List.range z.chunks).filter (fun c => !z.got.contains c) ++ (if z.digest.isNone then [0xFFFFFFFF] else []) }
      else z) }))

/-- LOAD_BARRIER_RELEASE (R472): once every node that is loading has confirmed, and the knot has reached their number, the images start. -/
def execLoadBarrierRelease (s : State) : Res :=
  let k := barrierKnot s
  .next (
    if s.nodes.any (fun e => e.2.load.any (fun z => !z.ok)) || s.brg.confirmed.isEmpty || decide ((s.knot k).count.toNat < s.brg.confirmed.length) then s
    else
      let s := s.brg.confirmed.foldl (fun s n => s.updNode n (fun d => { d with load := [] })) s
      let s := s.setKnot k { s.knot k with count := 0, sat := false }
      { s with brg := { s.brg with confirmed := [] } })

end Sys2Proof.Machine
end

