-- ==== Sys2Proof/Machine/Place.lean ====
section
/-! DEFINITION. Images: admission, placements and their routes, loading and arming a region, seam reconfiguration's loads, and re-placement
(R178, R210 to R219, R238 to R240, R256, R370, R372, R377, R421 to R428, R582). -/

namespace Sys2Proof

/-- The node of a logical pattern in a placement (R212). -/
def Placement.node (pl : Placement) (k : Nat) : NodeId := nth 0 pl.nodes k
/-- The placements of an image: the primary, then the alternates (R210). -/
def Image.place (img : Image) (i : Nat) : Option Placement := img.placements[i]?

end Sys2Proof

namespace Sys2Proof.Machine
open Sys2Proof

/-- A field of a slot image's header (R213). -/
def slotHdr (m : Memory) (off n : Nat) : Nat := m.num off n
def slotKind (m : Memory) : Nat := slotHdr m 2 1
def slotTag (m : Memory) : Nat := slotHdr m 3 1 % 4
/-- DIGEST of a slot image, and what it must be (R213, R217). -/
def slotDigest (m : Memory) : List Byte := m.bytes 96 48
def slotDigestOk (m : Memory) : Bool := sha384 ((m.zero 96 48).bytes 0 65536) == slotDigest m

/-- Logical patterns of a configuration tag. -/
def patternsOf (img : Image) (tag : Nat) : List Nat := (List.range img.patterns.length).filter (fun k => slotTag (nth [] img.patterns k) == tag)
/-- The tag of an image's first configuration: that of its logical pattern 0 (log 52). -/
def firstTag (img : Image) : Nat := slotTag (nth [] img.patterns 0)
/-- Nodes that hold a pattern of a configuration (R212), ascending. -/
def regionOfPlacement (img : Image) (pl : Placement) (tag : Nat) : List NodeId := ((patternsOf img tag).map pl.node).foldl setIns []
/-- The patterns of a configuration that a placement gives a node, ascending. -/
def patternsAt (img : Image) (pl : Placement) (tag : Nat) (n : NodeId) : List Nat := (patternsOf img tag).filter (fun k => pl.node k == n)
/-- What the primary placement's node (x, y) becomes in a placement: the node of the pattern there that enables the endpoint, if any does (R212). -/
def movedNode (img : Image) (pl : Placement) (n : NodeId) (input : Bool) (ep : Nat) : NodeId :=
  match img.place 0 with
  | none => n
  | some p0 =>
    let ks := (List.range img.patterns.length).filter (fun k => p0.node k == n)
    let off (m : Memory) : Nat := slotHdr m 14 2 + (if input || slotKind m == 4 then 0 else 1024) + 16 * ep
    let enabled (k : Nat) : Bool := let m : Memory := nth [] img.patterns k; fld (BitVec.ofNat 128 (m.num (off m) 16) : U128) 103 102 != 0
    match ks.find? enabled with
    | some k => pl.node k
    | none => match ks with | k :: _ => pl.node k | [] => n

/-- A descriptor as a placement has it: its partner's coordinates, and the waypoint of an output (R177, R212). `input` is the descriptor's own
direction. -/
def movedDesc (img : Image) (pl : Placement) (logical ep : Nat) (input : Bool) (d : U128) : U128 :=
  let d := if fld d 103 102 = 0 ∨ fld d 127 120 = 0xFF then d
    else
      let m := movedNode img pl (nodeAt (fld d 127 120) (fld d 119 112)) (!input) (fld d 111 104)
      setFld (setFld d 127 120 (nx m)) 119 112 (ny m)
  if input ∨ fld d 103 102 = 0 then d
  else
    match List.find? (fun (w : Nat × Nat × Nat × Nat) => w.1 == logical && w.2.1 == ep) pl.ways with
    | some w => setFld (setFld (setFld d 101 101 1) 100 93 w.2.2.1) 92 85 w.2.2.2
    | none => setFld d 101 101 0

/-- The slot image of a logical pattern as the loader writes it for a placement (R212, R213, R424). -/
def placedSlot (img : Image) (pl : Placement) (k : Nat) : Memory :=
  let m : Memory := nth [] img.patterns k
  let base := slotHdr m 14 2
  let isL := slotKind m == 4
  let put (m : Memory) (a : Nat) (input : Bool) (ep : Nat) : Memory := m.write a (leBytes 16 (movedDesc img pl k ep input (BitVec.ofNat 128 (m.num a 16))).toNat)
  let role (e : Nat) : Nat := m.num (slotHdr m 12 2 + 8 * e) 8 / 2 ^ 62
  let m := if isL then (List.range 256).foldl (fun m e => put m (base + 16 * e) (role e == 1) e) m
    else (List.range 64).foldl (fun m e => put (put m (base + 16 * e) true e) (base + 1024 + 16 * e) false e) m
  let lbase := base + (if isL then 4096 else 2048)
  (List.range ((slotHdr m 16 2 - (if isL then 4096 else 2048)) / 16)).foldl (fun m i =>
    let w : U128 := BitVec.ofNat 128 (m.num (lbase + 16 * i) 16)
    match List.find? (fun (x : Nat × Nat) => x.1 == fld w 121 114) pl.substitutes with
    | some x => m.write (lbase + 16 * i) (leBytes 16 (setFld w 121 114 x.2).toNat)
    | none => m) m

/-- Whether a multicast cover reaches a node (R377). -/
def covered (cover : List Rect) (n : NodeId) : Bool := cover.any (fun c => decide (c.x0 ≤ nx n) && decide (nx n ≤ c.x1) && decide (c.y0 ≤ ny n) && decide (ny n ≤ c.y1))

/-- A placement admits: a node of the pattern's kind in the partition's clusters for each pattern, at most four patterns of a configuration in
one node, both step knots on the commit home's L node, knots of the partition, and a cover that reaches the region (R200, R212, R213, R377). -/
def placementOk (s : State) (p : Nat) (img : Image) (pl : Placement) : Bool :=
  let c := s.cfg p
  let ns := regionOfPlacement img pl (firstTag img)
  let home := pl.node img.commitHome
  let knot (i : Nat) : Nat := (nth 0 (pl.knots) i).toNat
  (List.range img.patterns.length).all (fun k =>
    let n := pl.node k
    nodeExists n && (kindOf n).code == slotKind (nth [] img.patterns k) && kindOf n != .c && c.clusters.getLsbD (clusterOf n)) &&
  (List.range 4).all (fun t => ns.all (fun n => decide ((patternsAt img pl t n).length ≤ 4))) &&
  kindOf home == .l && knot img.stepKnot0 / 256 == lIndex home && knot img.stepKnot1 / 256 == lIndex home &&
  pl.knots.all (fun k => (s.part p).pl.knots.contains k.toNat) &&
  decide (1 ≤ pl.cover.length) && decide (pl.cover.length ≤ 7) && ns.all (covered pl.cover)

/-- Why an image is refused at admission (R212, R217, R254, R256, R377, R582): none when it is admitted. -/
def admission (s : State) (p : Nat) (img : Image) : Option Nat :=
  let flags := img.report.flags.foldl (· ||| ·) 0
  if img.patterns.isEmpty || img.placements.isEmpty || decide (2688 < img.patterns.length) || decide (8192 < img.placements.length) then some 0x04000003
  else if !img.patterns.all slotDigestOk then some 0x04000003
  else if !img.placements.all (placementOk s p img) then some 0x04000003
  else if (s.cfg p).prot && flags % 4 != 0 then some 0x04000003
  else none

/-- The image digest (R211). -/
def imageDigest (img : Image) : List Byte := sha384 (Config.imageHead img ++ img.patterns.flatMap (fun m => m.bytes 0 65536) ++ Config.imagePlacements img)

/-- A leg from a to b in dimension order: each router on it with the port it leaves by (R369). -/
def legPath (b : NodeId) : Nat → NodeId → List (NodeId × Nat)
  | 0, _ => []
  | fuel + 1, r =>
    if r = b then []
    else
      let port := dimPort r b
      match neighbour r port with
      | some q => (r, port) :: legPath b fuel q
      | none => []
/-- A route goes over GOOD routers and UP links and no DARK panel (R421). -/
def routeOk (s : State) (a b : NodeId) (way : Option NodeId) : Bool :=
  let leg (a b : NodeId) : List (NodeId × Nat) := legPath b 128 a
  let hops := match way with | some w => leg a w ++ leg w b | none => leg a b
  (b :: hops.map (·.1)).all (fun r => (s.entry r).router == 0 && (s.panel (panelOf r)).state != 3) &&
  hops.all (fun h => Table.get 0 (s.entry h.1).links h.2 == 0 && ((s.router h.1).port h.2).state == 1)

/-- The enabled output descriptors of a placed slot. -/
def slotOuts (m : Memory) : List U128 :=
  let base := slotHdr m 14 2
  let ds := if slotKind m = 4 then ((List.range 256).filter (fun e => m.num (slotHdr m 12 2 + 8 * e) 8 / 2 ^ 62 == 2)).map (fun e => base + 16 * e)
    else (List.range 64).map (fun e => base + 1024 + 16 * e)
  (ds.map (fun a => (BitVec.ofNat 128 (m.num a 16) : U128))).filter (fun d => outMode d != 0)
/-- L nodes that a placed slot's let-out entries name (R247). -/
def slotLetouts (m : Memory) : List Nat :=
  let off := if slotKind m = 4 then 4096 else 2048
  ((List.range ((slotHdr m 16 2 - off) / 16)).map (fun i => (BitVec.ofNat 128 (m.num (slotHdr m 14 2 + off + 16 * i) 16) : U128))).filterMap
    (fun w => if fld w 92 76 = 0 then none else some (fld w 121 114))

/-- A node that a placement may use: GOOD, and not in a panel that is parked (R421, R653). -/
def State.ready (s : State) (n : NodeId) : Bool := s.good n && decide ((s.panel (panelOf n)).state < 2)
/-- A placement is usable under the current fault map, parked nodes apart (R421, R653). -/
def usable (s : State) (p : Nat) (img : Image) (tag i : Nat) : Bool :=
  match img.place i with
  | none => false
  | some pl =>
    let ks := patternsOf img tag
    let cur := img.place (s.part p).pl.placement
    let home := pl.node img.commitHome
    ks.all (fun k => s.ready (pl.node k)) &&
    ks.all (fun k =>
      let m := placedSlot img pl k
      let n := pl.node k
      (slotOuts m).all (fun d =>
        let b := if fld d 127 120 = 0xFF then (hostDest s n s.stw.hostB).at' else nodeAt (fld d 127 120) (fld d 119 112)
        let w := if bit d 101 then some (nodeAt (fld d 100 93) (fld d 92 85)) else none
        routeOk s n b w && routeOk s b n w) &&
      (slotLetouts m).all (fun l => s.ready (lNode l))) &&
    pl.detours.all (fun e => routeOk s e.1 (nodeAt (fld e.2 62 55) (fld e.2 54 47)) (some (nodeAt (fld e.2 46 39) (fld e.2 38 31)))) &&
    (regionOfPlacement img pl tag).all (fun n => routeOk s home n none) &&
    s.ready home && [img.stepKnot0, img.stepKnot1].all (fun k => s.ready (lNode ((nth 0 pl.knots k).toNat / 256))) &&
    (match cur with
     | some c => img.report.written.all (fun k => !ks.contains k || c.node k == pl.node k || (s.part p).pl.region.isEmpty)
     | none => true)

/-- Assigned nodes of a placement in panels in THROTTLE (R422). -/
def throttled (s : State) (img : Image) (tag i : Nat) : Nat :=
  match img.place i with
  | some pl => ((regionOfPlacement img pl tag).filter (fun n => (s.panel (panelOf n)).state == 1)).length
  | none => 0
/-- The placement that the steward chooses (R422): the first usable, or with PRESSURE the usable one with fewest nodes in THROTTLE. -/
def choosePlacement (s : State) (p : Nat) (img : Image) (tag : Nat) : Option Nat :=
  let us := (List.range img.placements.length).filter (usable s p img tag)
  if (s.cfg p).pressure then
    us.foldl (fun (b : Option Nat) i => match b with | none => some i | some c => if throttled s img tag i < throttled s img tag c then some i else some c) none
  else us.head?

/-- The stochastic-rounding key of a logical pattern (R142). -/
def roundKey (seed : U64) (digest : List Byte) (logical : Nat) : U64 :=
  let w := philox (fld seed 31 0) (fld seed 63 32) logical (leNat (digest.take 4)) 0 0x4B440000
  mkWord 64 [(32, nth 0 w 1), (0, nth 0 w 0)]

/-- One node loaded with its patterns of a configuration: slots in ascending logical order, then pads, rounding keys and an F core's seed
(R142, R213, R215, R216, R675). -/
def loadNode (s : State) (p : Nat) (img : Image) (pl : Placement) (tag : Nat) (pads : Bool) (n : NodeId) : State :=
  let ks := patternsAt img pl tag n
  let x := s.part p
  s.updNode n (fun d =>
    let q := ks.zipIdx.foldl (fun (q : Pat) k => { q with
        slots := Table.put q.slots k.2 (placedSlot img pl k.1), loaded := setIns q.loaded k.2
        srKeys := Table.put q.srKeys k.2 (roundKey x.seedUsed x.pl.digest k.1) })
      { d.pat with slots := [], loaded := [], phase := .loaded, taps := [], srKeys := [] }
    let d : Node := { d with pat := q, part := some p, core := { d.core with seed := if kindOf n = .f then x.seedUsed else d.core.seed } }
    let d := if pads then (List.range ks.length).foldl (fun d k => layPads n img.data d k) d else d
    let h := homeSlot d.pat tag
    { d with resetting := false, pat := { d.pat with home := h, active := h, ctag := tag, taps := tapsOf (some img) (d.pat.logical h) } })

/-- A placement's detour entries written by the loader into free entries of their routers, those of the partition before it withdrawn (R370). -/
def writeDetours (s : State) (p : Nat) (pl : Placement) : State :=
  let s := allNodes.foldl (fun s r =>
    if (s.router r).detour.isEmpty then s
    else s.updRouter r (fun x => { x with detour := x.detour.filter (fun e => fld e.2 30 26 != p) })) s
  pl.detours.foldl (fun s e =>
    let free := ((List.range 64).find? (fun i => !Table.has (s.router e.1).detour i)).getD 63
    s.updRouter e.1 (fun x => { x with detour := Table.put x.detour free e.2 })) s

/-- The placement put into use: its region, knots, commit home and index (R212). -/
def setPlacement (s : State) (p : Nat) (img : Image) (pl : Placement) (i tag : Nat) : State :=
  let knot (k : Nat) : Nat := (nth 0 pl.knots k).toNat
  let s := (s.part p).pl.region.foldl (fun s n => s.updNode n (fun d => { d with part := none })) s
  s.updPart p (fun x => { x with pl := { x.pl with
    region := regionOfPlacement img pl tag, stepKnots := (knot img.stepKnot0, knot img.stepKnot1), commitHome := pl.node img.commitHome, placement := i } })

/-- A partition's image loaded on a placement, all of it (R217, R370). -/
def loadPlacement (s : State) (p : Nat) (img : Image) (pl : Placement) (i tag : Nat) : State :=
  let s := writeDetours (setPlacement s p img pl i tag) p pl
  (s.region p).foldl (fun s n => loadNode s p img pl tag true n) s

/-- Faults of arming recorded at their nodes (R178, R217, R218). -/
def recordArmFaults (s : State) (fs : List (NodeId × Nat)) : State := fs.foldl (fun s f => s.updNode f.1 (fun d => raiseAt f.1 d f.2 0 0)) s

/-- A region armed for a configuration (R165, R183, R219, R231, R335): every node and the host's ends. -/
def armRegion (s : State) (p tag : Nat) : State :=
  let s := (s.region p).foldl (fun s n => s.updNode n (armNode n tag)) s
  hostArm s p

/-- A bobbin's home moved from a lost L node (R424): mirrored, it goes to the substitute in state MOVING and its pages are asked of the twin;
otherwise it is LOST there. The entry keeps its index where that is free (log 53). -/
def rehomeBobbin (s : State) (p l m e : Nat) : State :=
  let b := s.bobbin l e
  let at' := if (s.bobbin m e).state = 0 then e else ((List.range 4096).find? (fun k => (s.bobbin m k).state == 0)).getD e
  if b.mirrored && mirrored s p then
    let units := (16 * b.listCap + 4095) / 4096
    let taken (u : Nat) : Bool := (s.ln m).ranges.any (fun r => decide (u < r.1 + r.2) && decide (r.1 < u + units))
    let u := ((List.range 1024).map (fun i => 65536 + i * max 1 units)).find? (fun u => !taken u)
    match u with
    | none => s.updLn m (fun x => { x.updBobbin at' (fun _ => { b with state := 3, linPages := 0, boltPages := 0 }) with lost := satAdd x.lost 1 })
    | some u =>
      let pages := (List.range b.listCap).filter (fun i => pleValid (ple s l b i))
      let s := s.updLn m (fun x => { x.updBobbin at' (fun _ => { b with state := 4, list := u, linPages := 0, boltPages := 0, end0 := 0, end1 := 0 }) with
        ranges := x.ranges ++ [(u, units)] })
      let s := { s with lining := s.lining.zero (linBase m + 4096 * u) (16 * b.listCap) }
      pages.foldl (fun s i =>
        let s := sendOn s p fFetch (lnStream p m) (s.part p).next (pageArg b.session i) []
        s.updPart p (fun x => { x with mir := { x.mir with restoring := x.mir.restoring ++ [(m, at', i)] } })) s
  else s.updLn m (fun x => { x.updBobbin at' (fun _ => { b with state := 3, linPages := 0, boltPages := 0 }) with lost := satAdd x.lost 1 })

/-- What a partition's lost L nodes take with them (R424). The Bool is whether the partition may go on: general pages are gone otherwise. -/
def loseLNodes (s : State) (p : Nat) (pl : Placement) : State × Bool :=
  let gone := ((s.cfg p).lnodes).filter (fun l => !s.good (lNode l) && !(s.ln l).bobbins.isEmpty)
  let s1 := gone.foldl (fun s l =>
    let m := ((List.find? (fun (x : Nat × Nat) => x.1 == l) pl.substitutes).map (·.2)).getD (((s.cfg p).lnodes.find? (fun k => s.good (lNode k))).getD l)
    let s := ((s.ln l).bobbins.filter (fun b => b.2.state != 0 && b.2.part == p)).foldl (fun s b => rehomeBobbin s p l m b.1) s
    s.updLn l (fun x => { x with bobbins := [] })) s
  let bad := (s.part p).pl.ptt.any (fun e => pttValid e.2 && !pttBolt e.2 && ((s.cfg p).stripe (pttSet e.2)).any (fun l => !s.good (lNode l)))
  (s1, !bad)

/-- One node loaded and armed with its channels at the committed ends that `o` held: the node itself, or the one its patterns come from. -/
def loadArmed (s : State) (p : Nat) (img : Image) (pl : Placement) (tag : Nat) (o : Node) (same pads : Bool) (n : NodeId) : State :=
  let com := (s.part p).committed
  let s := loadNode s p img pl tag pads n
  let s := s.updNode n (armNode n tag)
  s.updNode n (fun d =>
    let d : Node := { d with
      ins := Table.mapVals (fun e x => match Table.find? o.ins e with | some y => rearmIn y.committed { y with desc := Ep.desc x } | none => x) d.ins
      outs := Table.mapVals (fun e x => match Table.find? o.outs e with | some y => rearmOut y.committed { y with desc := Ep.desc x } | none => x) d.outs
      pat := { d.pat with committed := com, replays := if same then o.pat.replays else d.pat.replays } }
    clearStepSlots n d)

/-- Items 3 to 6 of R423 on a chosen placement: patterns are loaded, with the resident regions of those that moved or, after a reset (`all`), of
every one, and every channel is armed at its committed end by R235. -/
def moveTo (s : State) (p : Nat) (img : Image) (i : Nat) (all : Bool) : State :=
  match img.place i with
  | none => s
  | some pl =>
    let tag := (s.node (s.part p).pl.commitHome).pat.ctag
    let old := s.region p
    let was (n : NodeId) : Node := s.node n
    let cur := img.place (s.part p).pl.placement
    let s := writeDetours (setPlacement s p img pl i tag) p pl
    -- the committed end of a channel follows its logical pattern and endpoint
    let from' (n : NodeId) : NodeId := match cur, (patternsAt img pl tag n).head? with | some c, some k => c.node k | _, _ => n
    let s := (s.region p).foldl (fun s n =>
      let m := from' n
      let moved := all || m != n || !old.contains n
      let o := was m
      loadArmed s p img pl tag o (m == n) moved n) s
    let ks := (s.part p).pl.stepKnots
    [ks.1, ks.2].foldl (fun s k => s.setKnot k { alloc := true, sat := false, part := p, count := 0 }) s

/-- A re-placement (R423 to R427): the step undone, another placement chosen and loaded, and the region restarted; FAULTED with NO_PLACEMENT
where none is usable, with MEMORY where general pages are gone. The time it took is open (log 1). -/
def rePlace (s : State) (p : Nat) : State :=
  let fail (s : State) (reason : Nat) : State := failPart (s.log (s.eventFor 9 0x00 p)) p reason
  let s := undoStep s p
  let x := s.part p
  match (if x.seam.isSome then x.pl.nextImage.or x.pl.image else x.pl.image) with
  | none => fail s 0x06
  | some img =>
    let tag := (s.node (s.part p).pl.commitHome).pat.ctag
    match choosePlacement s p img tag with
    | none => fail s 0x06
    | some i =>
      match img.place i with
      | none => fail s 0x06
      | some pl =>
        let r := loseLNodes s p pl
        if !r.2 then failPart r.1 p 0x05
        else
          let s := moveTo r.1 p img i false
          let f := s.takeFree
          let s := f.2.updPart p (fun x => { x with pl := { x.pl with resumes := satAdd x.pl.resumes 1, lastResumeUs := BitVec.ofNat 32 (Config.free f.1) } })
          let s := s.log (s.eventFor 8 0x00 p)
          if (s.part p).mir.restoring.isEmpty then restart s p false else s

end Sys2Proof.Machine
end

