-- ==== Sys2Proof/Machine/Faults.lean ====
section
/-! DEFINITION. Fault events at the steward, the map in flash, moves off throttled panels, and the steward's standby (R399, R403 to R406, R414,
R423, R428, R433 to R435, R459). -/

namespace Sys2Proof.Machine
open Sys2Proof

/-- A steward is acting: neither C node is left without the other's duties taken over (R434). -/
def stewardActs (s : State) : Bool := if s.stw.standbyActs then !s.stw.standbyLost else !s.stw.stewardLost

/-- The standby takes over (R434): what no journal entry carries is gone, so the shadow set is a copy of the active set (log 54). -/
def takeOver (s : State) : State :=
  let s := { s with stw := { s.stw with standbyActs := true, stewardLost := true, missed := 0 } }
  let s := s.updDict (fun d => { d with shadow := d.active, staged := [], owner := none, ownerCode := 0, transfers := [], queue := [], awaiting := [] })
  s.log (s.eventAt 13 0x00 standbyNode)

/-- A hang's examination is abandoned when a fault event comes first (R459). -/
def dropHang (x : Partition) : Partition := { x with tr := { x.tr with hang := none, quiet := [], quietPc := [] } }

/-- A panel marked LOST with its 64 entries in one update (R433). -/
def markLost (s : State) (p : Nat) : State :=
  let s := s.updPanel p (fun x => { x with state := 4, throttledAt := none })
  s.updMap (panelNodes p) true (fun _ x => { x with state := 3, router := 2 })

/-- The placement in use no longer stands on the fault map (R421, R433). -/
def placementBroken (s : State) (p : Nat) : Bool :=
  let x := s.part p
  match x.pl.image with
  | none => false
  | some img => !usable s p img (s.node x.pl.commitHome).pat.ctag x.pl.placement

/-- What a running partition does about a fault event (R108, R403, R406, R423, R433). `named` is whether the event is of a node of its region. -/
def partFault (s : State) (p : Nat) (nt : FaultNote) (named : Bool) : State :=
  let ev := nt.ev
  let s := s.updPart p dropHang
  if ev.kind = 1 && isProgram ev.code then (if named then failPart s p 0x0A else s)
  else if (s.region p).any (fun n => (s.node n).fenced) then rePlace s p
  else if ev.kind = 1 && named then
    let x := s.part p
    let again := match x.tr.replayNode with | some (m, k) => x.tr.replayStep == x.next && m == nt.node && decide (4 ≤ k) | none => false
    if again && kindOf nt.node != .c && ev.code != 0x18 then rePlace (fenceNode s nt.node 0x24 true) p
    else orderReplay s p (if ev.code = 0x18 then none else some nt.node)
  else if (ev.kind = 3 || ev.kind = 4 || ev.kind = 5) && placementBroken s p then rePlace s p
  else s

/-- FAULT_EVENT_RECEIPT (R399, R403): the oldest event that the acting steward has not received is logged and handled. An event naming the
steward's own node makes the standby take over first (R434). -/
def execFaultEventReceipt (s : State) : Res :=
  .next (
    match s.stw.f.notes with
    | [] => s
    | nt :: rest =>
      let own := nt.fenced && nt.node == s.stewardAt
      let s0 := s
      let s := if own && !s.stw.standbyActs && !s.stw.standbyLost then takeOver s
        else if nt.fenced && nt.node == standbyNode then { s with stw := { s.stw with standbyLost := true } } else s
      if !stewardActs s then s0
      else
        let s := s.updFaults (fun q => { q with notes := rest })
        let s := if nt.ev.kind = 5 then markLost s nt.ev.panel else s
        let s := s.log (if nt.ev.kind = 5 then { nt.ev with gen := s.stw.f.gen } else nt.ev)
        let ps := (List.range 16).filter (fun p => (s.part p).state == .running)
        let s := ps.foldl (fun s p =>
          let named := nt.ev.part == p || (nt.ev.part == 0xFF && (s.region p).contains nt.node)
          if named || [2, 3, 4, 5].contains nt.ev.kind then partFault s p nt named else s) s
        (gradeCheck s).journalled)

/-- FAULT_MAP_FLASH_WRITE (R414, R486): the map and the repair maps go to both banks of flash. -/
def execFaultMapFlashWrite (ok : Bool) (s : State) : Res :=
  .next (
    if !s.stw.f.dirty || !ok then s
    else
      let lanes := s.nodes.filterMap (fun e => if kindOf e.1 = .m ∧ !(e.2.mc.rowRep.isEmpty && e.2.mc.colRep.isEmpty) then some (e.1, e.2.mc.rowRep, e.2.mc.colRep) else none)
      let rows := s.nodes.filterMap (fun e => if e.2.pad.retired.isEmpty then none else some (e.1, e.2.pad.retired))
      let s := { s with brg := { s.brg with stored := some { map := s.stw.f.map, lanes := lanes, rows := rows } } }
      s.updFaults (fun q => { q with dirty := false, stored := q.gen }))

/-- PRESSURE_MOVE (R428): a partition whose placement uses a panel that has stayed in THROTTLE moves to one that avoids it. -/
def execPressureMove (p : Nat) (s : State) : Res :=
  if 16 ≤ p then .fault .noSuchUnit
  else
    let x := s.part p
    let hot := (List.range 42).filter (fun k => match (s.panel k).throttledAt with | some t => decide (t + msCycles (s.cfg p).pressureHold ≤ s.clock) | none => false)
    let used := hot.filter (fun k => (s.region p).any (fun n => panelOf n == k))
    .next (
      if x.state ≠ .running || !(s.cfg p).pressure || used.isEmpty then s
      else
        match x.pl.image with
        | none => s
        | some img =>
          let tag := (s.node x.pl.commitHome).pat.ctag
          let avoids (i : Nat) : Bool := match img.place i with
            | some pl => (regionOfPlacement img pl tag).all (fun n => !used.contains (panelOf n))
            | none => false
          match (List.range img.placements.length).find? (fun i => i != x.pl.placement && avoids i && usable s p img tag i) with
          | none => s
          | some i =>
            let s := moveTo (undoStep s p) p img i false
            restart (s.log (s.eventFor 8 0x00 p)) p false)

/-- STEWARD_HEARTBEAT (R434): every 100 µs the standby hears the steward, or misses it. -/
def execStewardHeartbeat (s : State) : Res :=
  .next { s with stw := { s.stw with missed := if s.stw.stewardLost || (s.node stewardNode).fenced then s.stw.missed + 1 else 0 } }

/-- JOURNAL_ENTRY (R434): the standby has the entries sent so far. -/
def execJournalEntry (s : State) : Res :=
  .next (if s.stw.standbyLost || s.stw.standbyActs then s else { s with stw := { s.stw with journalGot := s.stw.journal } })

/-- STANDBY_TAKEOVER (R434): three heartbeats have been missed. -/
def execStandbyTakeover (s : State) : Res :=
  .next (if s.stw.missed < 3 || s.stw.standbyActs || s.stw.standbyLost then s else (takeOver s).journalled)

end Sys2Proof.Machine
end

