-- ==== Sys2Proof/Machine/Reset.lean ====
section
/-! DEFINITION. The reset ladder: nodes, partitions, the module, and the power cycle that ends it (R452 to R461). -/

namespace Sys2Proof.Machine
open Sys2Proof

/-- A node reset (R453, R458): NODE_FENCED is set, and what the warden's order clears is cleared. Spare maps, scratchpad contents, owner tags,
knot counts, bobbin tables, frames and key slots stay. -/
def Node.reset (nd : Node) : Node :=
  { nd with
    resetting := true, halted := false, fault := 0, faultLoc := 0, hist := [], told := 0, ins := [], outs := [], load := [], pat := {}
    core := { seed := nd.core.seed }
    mc := { rowRep := nd.mc.rowRep, colRep := nd.mc.colRep, badRows := nd.mc.badRows, badCols := nd.mc.badCols }
    ln := { nd.ln with
      waits := [], promos := [], demos := [], stepEnds := [], appended := [], outbox := [], pttCache := [], eccCorrected := 0, eccUncorrected := 0
      pagesPoisoned := 0, scrubPasses := 0, boltMacFail := 0, boltOdecc := 0, pfPromoted := 0, pfDemoted := 0, pfMiss := 0, pfStall := 0
      pfDropped := 0, cacheHits := 0, cacheMisses := 0, refused := 0, lost := 0 }
    pad := { nd.pad with
      tagged := 0, filled := 0, checked := true, parityLoc := 0, fillFaultLoc := 0, parityErrors := 0, narrowForced := 0, rbfUnchecked := 0
      obdUnchecked := 0, ownerRefused := 0, recvanyCount := 0, knotRetries := 0 } }

/-- A fault log record of a reset: KIND 15 with its level (R448). -/
def logReset (s : State) (p level : Nat) : State := s.log (s.eventFor 15 level p)

/-- A node of a partition's region reset, loaded again and armed at its committed ends (R453, R463). -/
def resetInPlace (s : State) (p : Nat) (n : NodeId) : State :=
  let o := s.node n
  let s := s.updNode n Node.reset
  match (s.part p).pl.image with
  | none => s
  | some img =>
    match img.place (s.part p).pl.placement with
    | none => s
    | some pl => if (s.region p).contains n && !o.fenced then loadArmed s p img pl o.pat.ctag o true true n else s

/-- RESET_NODE's effect (R453, R463): a node of a RUNNING partition is reset, loaded and its step replayed; one that no placement holds stays
unloaded. -/
def resetNodeOrder (s : State) (n : NodeId) : State :=
  let s0 := s.log (s.eventAt 15 2 n)
  match (List.range 16).find? (fun p => (s.region p).contains n) with
  | none => s0.updNode n Node.reset
  | some p =>
    let s := resetInPlace s0 p n
    if (s.part p).state = .running then orderReplay s p none else s

/-- Item 1 of R454: the region halts, and the partition drains. A commit already decided stands (R460). -/
def beginReset (s : State) (p why : Nat) : State :=
  let s := settleCommits s p
  let s := stopRegion s p
  let s := s.updPart p (fun x => { dropHang x with resetFor := some why, pauseReq := none, seam := none, mir := { x.mir with waiting := none, restoring := [], leaves := [] } })
  logReset (setPart s p .draining none) p (if why = 2 then 4 else 3)

/-- Items 4 and 5 of R454: every node of the region is reset, the partition's knots read 0 and uncommitted appends are gone. -/
def resetRegion (s : State) (p : Nat) : State :=
  let s := { s with flight := s.flight.filter (fun k => rtOwner k.route != p) }
  let s := (s.region p).foldl (fun s n => s.updNode n (fun d => if d.fenced then d else d.reset)) s
  ((s.cfg p).lnodes).foldl (fun s l => s.updLn l (fun x => { x with
    knots := Table.mapVals (fun _ k => if Knot.part k = p then { k with count := 0, sat := false } else k) x.knots
    bobbins := Table.mapVals (fun _ b => if Bobbin.part b = p then { b with end0 := 0, end1 := 0 } else b) x.bobbins })) s

/-- Items 6 and 7 of R454: the image loaded again on a usable placement, and the partition PAUSED at its last committed step. -/
def reloadPaused (s : State) (p : Nat) (was : List (NodeId × Node)) (reason : Nat) : State :=
  let s := s.updPart p (fun x => { x with resetFor := none })
  match (s.part p).pl.image with
  | none => setPart s p .paused (some reason)
  | some img =>
    let tag := match was with | x :: _ => x.2.pat.ctag | [] => firstTag img
    match choosePlacement s p img tag with
    | none => failPart s p 0x06
    | some i =>
      let s1 := was.foldl (fun s x => s.updNode x.1 (fun d => { d with ins := x.2.ins, outs := x.2.outs, pat := { d.pat with ctag := tag, replays := x.2.pat.replays } })) s
      setPart (moveTo s1 p img i true) p .paused (some reason)

/-- A node as a module reset leaves it: key registers and key slots cleared, knots at 0, on top of a node reset (R454, R456, R458, R574). -/
def Node.moduleReset (d : Node) : Node :=
  let r := if d.fenced then d else d.reset
  let knots := Table.mapVals (fun _ (k : Knot) => { k with count := 0, sat := false }) r.ln.knots
  { r with core := { r.core with seed := 0 }, ln := { r.ln with keyCur := none, keyPrev := none, waits := [], knots := knots } }

/-- Fields of a flash bank's header (R592): SVN, JOURNAL_VER, VERSION, IMAGE_LEN, IMAGE_DIGEST; and the image. -/
def bankSvn (b : List Byte) : Nat := leNat ((b.drop 2).take 1)
def bankJournal (b : List Byte) : Nat := leNat ((b.drop 3).take 1)
def bankVersion (b : List Byte) : Nat := leNat ((b.drop 4).take 4)
def bankLen (b : List Byte) : Nat := leNat ((b.drop 8).take 4)
def bankDigest (b : List Byte) : List Byte := (b.drop 12).take 48
def bankImage (b : List Byte) : List Byte := (b.drop 0x3000).take (bankLen b)
/-- A bank whose signatures verify over a header that its image fits (R466, R592, R593). -/
def bankSound (b : List Byte) : Bool :=
  leNat (b.take 2) == 1 && decide (bankLen b ≤ 0x2000000) && decide ((bankImage b).length = bankLen b) && Config.signatureOk (b.take 0x3000) &&
    sha384 (bankImage b) == bankDigest b
/-- The banks of a hem in the order in which its ROM tries them (R466). -/
def HostHem.banks (h : HostHem) : List (List Byte) := if h.active = 1 then [h.bank1, h.bank0] else [h.bank0, h.bank1]
/-- ARB fuses of both hems blown up to the SVN that both stewards run, while ARB_HOLD is 1 (R596). -/
def advanceArb (s : State) : State :=
  let svn := min s.sec.svnSteward s.sec.svnStandby
  if !s.sec.arbHold then s
  else { s with hemA := { s.hemA with arb := max s.hemA.arb svn }, hemB := { s.hemB with arb := max s.hemB.arb svn } }

/-- What a C node runs once its ROM has booted it again: the first bank accepted; where neither is, what it ran (log 56). -/
def bootBank (h : HostHem) : Option (List Byte) := h.banks.find? (fun b => bankSound b && decide (h.arb ≤ bankSvn b))
/-- Both C nodes run a firmware (R468, R587, R596): a staged image that both run is staged no longer. -/
def runFirmware (s : State) (b : List Byte) : State :=
  let s := { s with sec := { s.sec with fwSteward := bankDigest b, fwStandby := bankDigest b, fwVersion := bankVersion b, svnSteward := bankSvn b, svnStandby := bankSvn b } }
  advanceArb (if s.sec.staged = some (bankDigest b) then { s with sec := { s.sec with staged := none, fwStatus := 0 } } else s)
/-- The C nodes restart into ROM and boot (R456, R466, R468). -/
def rebootStewards (s : State) : State :=
  match bootBank (if s.stw.stewardLost then s.hemB else s.hemA) with
  | some b => runFirmware s b
  | none => s

/-- The C nodes and every other node of the wafer reset, key registers cleared, and partitions returned (R456, R569, R574). -/
def finishModule (s : State) : State :=
  let s := rebootStewards { s with nodes := Table.mapVals (fun _ d => Node.moduleReset d) s.nodes }
  let s := (List.range 16).foldl (fun s p =>
    let x := s.part p
    if x.state ≠ .resetting ∨ x.resetFor ≠ some 2 then s
    else if (s.cfg p).prot then
      let f := s.takeFree
      let s := f.2.updPart p (fun x => { x with keys := { x.keys with installed := false, master := [], seed := 0, kexPublic := leBytes 1665 (Config.free f.1) } })
      setPart s p .loading (some 0x0B)
    else reloadPaused s p [] 0x02) s
  answerAwaits { s with stw := { s.stw with mstate := (s.stw.moduleReset).getD s.stw.mstate, moduleReset := none } } 16 0

/-- The module reset goes on once every partition has been reset (R456). -/
def moduleResetStep (s : State) : State :=
  if s.stw.moduleReset.isSome && !(List.range 16).any (fun p => (s.part p).state == .draining) then finishModule s else s

/-- A module reset ordered (R456, R461): the fault map goes to flash at once, then every partition is reset. -/
def orderModuleReset (s : State) : State :=
  if s.stw.moduleReset.isSome then s
  else
    let s := s.updFaults (fun q => { q with dirty := false, stored := q.gen })
    let s := { s with brg := { s.brg with stored := some { (s.brg.stored.getD {}) with map := s.stw.f.map } } }
    let s := { s with stw := { s.stw with moduleReset := some s.stw.mstate } }
    let s := (List.range 16).foldl (fun s p =>
      match (s.part p).state with
      | .empty => s
      | .draining => s.updPart p (fun x => { x with resetFor := some 2 })
      | .resetting => if (s.part p).resetFor = some 4 then s else s.updPart p (fun x => { x with resetFor := some 2 })
      | _ => beginReset s p 2) s
    moduleResetStep s

/-- PARTITION_RESET_WAIT_END (R454 items 3 to 7, R517, R590): packets of the fabric have arrived and been absorbed. -/
def execPartitionResetWaitEnd (p : Nat) (s : State) : Res :=
  if 16 ≤ p then .fault .noSuchUnit
  else
    .next (
      match (s.part p).state, (s.part p).resetFor with
      | .draining, some why =>
        let was := (s.region p).map (fun n => (n, s.node n))
        let s := resetRegion (setPart s p .resetting none) p
        if why = 0 then reloadPaused s p was 0x01
        else if why = 1 then
          let s := (s.region p).foldl (fun s n => s.updNode n (fun d => { d with part := none })) s
          s.updPart p (fun x => { x with resetFor := some 4 })
        else if why = 2 then moduleResetStep s
        else setPart (s.updPart p (fun x => { x with resetFor := none })) p .faulted (some 0x0E)
      | _, _ => s)

/-- NODE_RESET_DEADLINE (R452): a node whose reset has not completed is fenced with RESET_FAIL, and its partition is reset. -/
def execNodeResetDeadline (n : NodeId) (s : State) : Res :=
  onNode [.m, .v, .f, .l, .c] n s (fun s =>
    if !(s.node n).resetting then s
    else
      let s := fenceNode s n 0x25 true
      match (List.range 16).find? (fun p => (s.region p).contains n) with
      | none => s
      | some p => if [PartState.empty, .draining, .resetting].contains (s.part p).state then s else beginReset s p 0)

/-- CONTEXT_RESET_DEADLINE (R452): the context reset of a named slot has not completed: its node is reset, and the step replays. -/
def execContextResetDeadline (n : NodeId) (s : State) : Res :=
  onNode [.m, .v, .f, .l] n s (fun s =>
    match (List.range 16).find? (fun p => match (s.part p).tr.namedSlot with | some (m, _, t) => m == n && t == (s.part p).next && (s.part p).state == .running | none => false) with
    | none => s
    | some p => orderReplay (logReset (resetInPlace s p n) p 2) p none)

/-- PARTITION_RESET_DEADLINE (R452): a partition reset that misses 100 ms becomes a module reset. -/
def execPartitionResetDeadline (p : Nat) (s : State) : Res :=
  if 16 ≤ p then .fault .noSuchUnit
  else .next (if ((s.part p).state == .draining || (s.part p).state == .resetting) && (s.part p).resetFor != some 4 then orderModuleReset s else s)

/-- TRAY_CYCLE_REQ asserted by a hem (R457, R664). -/
def assertCycle (s : State) (b : Bool) : State :=
  let s := if b then { s with hemB := { s.hemB with trayCycle := true } } else { s with hemA := { s.hemA with trayCycle := true } }
  { s with pow := { s.pow with trayCycle := true } }

/-- MODULE_RESET_DEADLINE (R457): the acting steward asserts TRAY_CYCLE_REQ, at the hem it boots from. -/
def execModuleResetDeadline (s : State) : Res :=
  .next (if s.stw.moduleReset.isSome then assertCycle s (s.stw.standbyActs || s.stw.stewardLost) else s)

/-- WATCHDOG_STROKE (R457): either steward strokes both hems' watchdogs. -/
def execWatchdogStroke (s : State) : Res :=
  .next (if s.stw.stewardLost && s.stw.standbyLost then s
    else { s with hemA := { s.hemA with stroked := s.clock }, hemB := { s.hemB with stroked := s.clock } })

/-- HEM_WATCHDOG_EXPIRY (R457): a hem that nothing has stroked for 1 s asserts TRAY_CYCLE_REQ by itself. -/
def execHemWatchdogExpiry (h : Nat) (s : State) : Res :=
  if h = 3 then .next (if s.hemA.dead then s else assertCycle s false)
  else if h = 10 then .next (if s.hemB.dead then s else assertCycle s true)
  else .fault .noSuchUnit

end Sys2Proof.Machine
end

