-- ==== Sys2Proof/Machine/Scan.lean ====
section
/-! DEFINITION. Scan-out and scan-in of a stopped node, in the item format that hang samples share, and sealed blobs (R250 to R252, R446, R581). -/

namespace Sys2Proof.Machine
open Sys2Proof

/-- A list filled up with zeros to a multiple of 16 (R250 LENGTH). -/
def pad16 (l : List Byte) : List Byte := l ++ List.replicate ((16 - l.length % 16) % 16) 0

/-- A scan item with its 16-byte header (R250). -/
def itemBytes (n : NodeId) (i : ScanItem) : List Byte :=
  leBytes 16 (mkWord 128 [(120, i.ty), (112, nx n), (104, ny n), (88, i.index % 65536), (56, i.data.length), (24, i.step)] : U128).toNat ++ i.data

/-- Bytes of a row of 64-bit registers. -/
def regsBytes (l : List U64) : List Byte := l.flatMap (fun v => leBytes 8 v.toNat)

/-- An accumulator of an item of TYPE 0x07 (R251). -/
def accItem (a : Acc) : List Byte := leBytes 16 ((a.v % 2 ^ 100).toNat + a.sp * 2 ^ 100)

/-- A record as it is stored in its ring (R186, R251). -/
def recStored (nd : Node) (r : ChanRec) : List Byte :=
  let hdr := leBytes 16 r.hdr.toNat ++ List.replicate 48 0
  if rhKind r.hdr = 0 then hdr ++ nd.pad.read r.addr (64 * ((rhLen r.hdr + 63) / 64)) else hdr

/-- Enabled endpoints in the order of the register blocks (R208): block number, direction, endpoint. -/
def epBlocks (n : NodeId) (nd : Node) : List (Nat × Bool × Ep) :=
  let base := if kindOf n = .l then 0 else 64
  (nd.ins.filter (fun e => inMode e.2.desc != 0)).map (fun e => (e.1, false, e.2)) ++
    (nd.outs.filter (fun e => outMode e.2.desc != 0)).map (fun e => (base + e.1, true, e.2))

/-- Node item, TYPE 0x01 (R251). -/
def nodeItem (nd : Node) : ScanItem :=
  ⟨0x01, 0, nd.pat.current.toNat, regsBytes (patState nd :: stepNum nd.pat :: (List.range 4).map (slotWord nd.pat))⟩
/-- Endpoint items, TYPE 0x08 (R251). -/
def epItems (n : NodeId) (nd : Node) : List ScanItem :=
  (epBlocks n nd).map (fun e => ⟨0x08, e.1, nd.pat.current.toNat, regsBytes ((List.range 8).map (epReg e.2.1 e.2.2))⟩)

/-- STEP regions of the running configuration (R215, R251). -/
def stepRegions (nd : Node) : List RegionRec := ((cfgSlots nd.pat nd.pat.ctag).flatMap (regionRecs nd.pat)).filter (fun r => r.use == 2)
/-- A region item's data: a line-valid bitmap, then the lines (R251). -/
def regionData (n : NodeId) (nd : Node) (r : RegionRec) : List Byte :=
  let a := (padRange n r.pad).1 + 4096 * r.first
  let ls := linesOf a (4096 * r.count)
  let bits := ls.zipIdx.foldl (fun b l => if nd.pad.valid.contains l.1 then b + 2 ^ l.2 else b) 0
  pad16 (leBytes (8 * r.count) bits) ++ ls.flatMap nd.pad.line

/-- The items of a node's scan, in order (R251). `seq` is what the sequencer item holds, whose layout the spec does not give (log 49). -/
def scanItems (n : NodeId) (nd : Node) (seq : List Byte) : List ScanItem :=
  let it (ty i : Nat) (d : List Byte) : ScanItem := ⟨ty, i, nd.pat.current.toNat, d⟩
  let c := nd.core
  let core := if kindOf n = .v ∨ kindOf n = .f then
      [it 0x02 0 (regsBytes ((List.range 32).map (fun i => Table.get 0 c.scalars i))),
       it 0x03 0 ((List.range 16).flatMap (fun i => leBytes 4 (Table.get 0 c.counters i).toNat) ++ (List.range 16).flatMap (fun i => leBytes 4 (Table.get 0 c.reloads i).toNat)),
       it 0x04 0 ((List.range 8).flatMap (fun i => leBytes 512 (Table.get 0 c.preds i).toNat)),
       it 0x05 0 ((List.range 16).flatMap (fun i => leBytes 4096 (Table.get 0 c.tiles i).toNat))]
    else []
  let m := if kindOf n = .m then it 0x06 0 seq :: nd.mc.planes.map (fun q => it 0x07 q.1 ((nd.mc.group q.2).acc.flatMap accItem)) else []
  let rings := (nd.ins.filter (fun e => inMode e.2.desc == 1)).map (fun e => it 0x09 e.1 (e.2.recs.flatMap (recStored nd)))
  let tags := it 0x0A 0 (regsBytes ((List.range (padBytes n / 131072)).map (fillWord nd.pad)))
  let regs := (stepRegions nd).zipIdx.map (fun r => it 0x0B r.2 (regionData n nd r.1))
  nodeItem nd :: core ++ m ++ epItems n nd ++ rings ++ tags :: regs ++ [it 0xFF 0 []]

/-- DIGEST of each loaded slot (R213, R252). -/
def slotDigests (nd : Node) : List (Nat × List Byte) := nd.pat.loaded.map (fun k => (k, slotDigest (nd.pat.image k)))

/-- A node that has stopped or is held (R250, R404). -/
def scanStopped (nd : Node) : Bool := nd.pat.phase == .stopped || nd.pat.phase == .scanning || nd.pat.held || nd.halted
/-- The debug class that scanning a node needs: D1, or D2 where its owner is protected (R580, R589). -/
def scanAllowed (s : State) (n : NodeId) : Bool :=
  let need := match (s.node n).part with | some p => if (s.cfg p).prot then 2 else 1 | none => 1
  decide (need ≤ Table.get 0 s.sec.debugCls (clusterOf n))

/-- STATE_SCAN_OUT (R250, R251): the steward takes the scan of a stopped node once nothing is in flight in it; the node stays stopped. -/
def execStateScanOut (n : NodeId) (s : State) : Res :=
  onNode [.m, .v, .f, .l] n s (fun s =>
    let nd := s.node n
    if !scanStopped nd || !scanAllowed s n || !nd.mc.flights.isEmpty || !nd.mc.drains.isEmpty then s
    else
      let f := s.takeFree
      let rec' : ScanRec := ⟨scanItems n nd (leBytes 4096 (Config.free f.1)), slotDigests nd, nd⟩
      let s := if kindOf n = .m then f.2 else s
      { s.updNode n (fun d => { d with pat := { d.pat with phase := .scanning } }) with stw := { s.stw with scans := Table.put s.stw.scans n rec' } })

/-- Lines of [a, a + n) taken from another scratchpad with their valid bits. -/
def Pad.copyLines (p q : Pad) (a n : Nat) : Pad :=
  let ls := linesOf a n
  { p with bytes := p.bytes.write a (q.bytes.bytes a n)
           valid := (ls.filter q.valid.contains).foldl setIns (p.valid.filter (fun l => !ls.contains l))
           bad := (p.bad.filter (fun w => !ls.contains (w / 16))) ++ q.bad.filter (fun w => ls.contains (w / 16)) }

/-- A scanned node as scan-in restores it (R252): what the items hold, and with it the sequencing state they stand for (log 49). Spare maps,
scratchpad outside the items, owner tags, slots and counters of the node stay. -/
def restoreScan (n : NodeId) (nd o : Node) : Node :=
  let rings := (o.ins.filter (fun e => inMode e.2.desc == 1)).map (fun e => (inStart n e.2.desc, inBytes e.2.desc))
  let regions := (stepRegions o).map (fun r => ((padRange n r.pad).1 + 4096 * r.first, 4096 * r.count))
  let pad := (rings ++ regions).foldl (fun (p : Pad) r => p.copyLines o.pad r.1 r.2) nd.pad
  { nd with
    halted := o.halted, fault := o.fault, faultLoc := o.faultLoc, ins := o.ins, outs := o.outs
    core := { o.core with seed := nd.core.seed, satEvents := nd.core.satEvents, residue := nd.core.residue, fnCompare := nd.core.fnCompare
                          fnRange := nd.core.fnRange, kclamp := nd.core.kclamp, degen := nd.core.degen, issueCycles := nd.core.issueCycles
                          retired := nd.core.retired }
    mc := { nd.mc with run := o.mc.run, window := o.mc.window, fetch := o.mc.fetch, loops := o.mc.loops, loopWait := o.mc.loopWait
                       groups := o.mc.groups, planes := o.mc.planes, shadow := o.mc.shadow, lastPass := o.mc.lastPass, passSeq := o.mc.passSeq
                       cuffs := o.mc.cuffs }
    ln := { nd.ln with outbox := o.ln.outbox, stepEnds := o.ln.stepEnds, appended := o.ln.appended }
    pad := { pad with tagged := o.pad.tagged, filled := o.pad.filled }
    pat := { o.pat with slots := nd.pat.slots, loaded := nd.pat.loaded } }

/-- SCAN_IN (R252): a stopped node whose slots hold patterns of the same DIGEST values takes back its scan and resumes where that stopped it;
otherwise the scan-in is refused and nothing changes. -/
def execScanIn (n : NodeId) (s : State) : Res :=
  onNode [.m, .v, .f, .l] n s (fun s =>
    let nd := s.node n
    match Table.find? s.stw.scans n with
    | none => s
    | some r =>
      if !scanStopped nd || !scanAllowed s n || slotDigests nd != r.digests then s
      else s.setNode n (restoreScan n nd r.node))

/-- REPORT key of a protected partition (R572). -/
def reportKey (x : Keys) : List Byte := hkdf384 x.deliveryId x.master [0x52, 0x45, 0x50, 0x4F, 0x52, 0x54] 32
/-- A sealed blob (R581): its header, ciphertext and tag. SEQ counts on. -/
def sealBlob (s : State) (p kind : Nat) (data : List Byte) : State × List Byte :=
  let x := (s.part p).keys
  let hdr := leBytes 1 kind ++ leBytes 1 p ++ List.replicate 6 0 ++ leBytes 8 x.blobSeq ++ x.deliveryId ++ List.replicate 16 0
  let r := gcmSeal (reportKey x) (leBytes 8 x.blobSeq ++ List.replicate 4 0) hdr data
  (s.updPart p (fun y => { y with keys := { y.keys with blobSeq := y.keys.blobSeq + 1 } }), hdr ++ r.1 ++ r.2)

end Sys2Proof.Machine
end

