-- ==== Sys2Proof/Machine/Hang.lean ====
section
/-! DEFINITION. Hangs: their declaration, examination, record and sample, and suspect replays (R233, R439 to R451, R459). -/

namespace Sys2Proof.Machine
open Sys2Proof

/-- Consumption events of a partition's nodes in a panel (R439). -/
def panelEvents (s : State) (p panel : Nat) : Nat := (((s.region p).filter (fun n => panelOf n == panel)).map (fun n => (s.node n).events)).foldl (· + ·) 0
/-- Panels that hold a node of a partition's region. -/
def regionPanels (s : State) (p : Nat) : List Nat := ((s.region p).map panelOf).foldl setIns []
/-- A node's program index (R110, R151). -/
def progIndex (n : NodeId) (nd : Node) : Nat :=
  match kindOf n with
  | .m => (match nd.mc.window with | c :: _ => c.idx | [] => nd.mc.fetch)
  | _ => nd.core.pc.toNat

/-- The counts of R440 run (R442). -/
def windowRuns (s : State) (p : Nat) : Bool :=
  let x := s.part p
  x.state == .running && x.mir.waiting.isNone && x.mir.restoring.isEmpty && (match x.tr.hang with | some h => h.suspect.isSome | none => true)

/-- HANG_WINDOW_EXPIRY (R440, R442): a panel's warden records the program indices of the partition's nodes there and sends QUIET. -/
def execHangWindowExpiry (panel p : Nat) (s : State) : Res :=
  if 42 ≤ panel ∨ 16 ≤ p then .fault .noSuchUnit
  else
    .next (
      if !windowRuns s p || !(regionPanels s p).contains panel then s
      else
        let ns := (s.region p).filter (fun n => panelOf n == panel)
        let at' := panelEvents s p panel
        s.updPart p (fun x => { x with tr := { x.tr with
          quiet := setIns x.tr.quiet panel
          quietAt := Table.put x.tr.quietAt panel at'
          quietPc := ns.foldl (fun t n => Table.put t n (progIndex n (s.node n))) x.tr.quietPc } }))

/-- What a node of a hung region waits on (R443). -/
inductive WaitEdge where
  /-- An edge to a node, with what it names. -/
  | to (n : NodeId) (e : NamedEdge)
  /-- A knot wait, which ends a path. -/
  | knot (e : NamedEdge)
  /-- An external source, with what it names. -/
  | external (e : NamedEdge)
  | ended
  | stuck
  /-- No row of R443 applies. -/
  | free
  deriving DecidableEq, Repr

/-- Roles of NAMED (R448). -/
abbrev roleFull : Nat := 0
abbrev roleEmpty : Nat := 1
abbrev roleKnot : Nat := 2
abbrev roleLetout : Nat := 3
abbrev roleSeam : Nat := 4

/-- The edge from a node to the receiver of one of its outputs. -/
def edgeOut (nd : Node) (n : NodeId) (ep : Nat) : WaitEdge :=
  let o := nd.outEp ep
  let role := if o.letout then roleLetout else roleFull
  if fld o.desc 127 120 = 0xFF then .external ⟨n, ep, 0xFFFF, fld o.desc 111 104, role⟩
  else
    let m := nodeAt (fld o.desc 127 120) (fld o.desc 119 112)
    .to m ⟨n, ep, m, fld o.desc 111 104, role⟩
/-- The edge from a node to the sender of one of its inputs. -/
def edgeIn (nd : Node) (n : NodeId) (ep role : Nat) : WaitEdge :=
  let d := (nd.inEp ep).desc
  if fld d 127 120 = 0xFF then .external ⟨0xFFFF, fld d 111 104, n, ep, role⟩
  else
    let m := nodeAt (fld d 127 120) (fld d 119 112)
    .to m ⟨m, fld d 111 104, n, ep, role⟩
/-- The edge of a node that waits on a knot (R443): an external source where the host has operated the knot since arm. -/
def edgeKnot (s : State) (p : Nat) (n : NodeId) (knot : Nat) : WaitEdge :=
  let e : NamedEdge := ⟨n, 0, lNode (knot / 256), knot % 256, roleKnot⟩
  if (s.part p).pl.hostKnots.contains knot then .external e else .knot e

/-- The knot a blocked WAIT awaits: where its request waits, is on its way, or is kept for its resend (R202, R203). -/
def awaitedKnot (s : State) (p : Nat) (n : NodeId) (t : Nat) : Option Nat :=
  let mine (pay : U128) : Bool := fld pay 103 96 == t && fld pay 95 88 == nx n && fld pay 87 80 == ny n
  match ((s.cfg p).lnodes).findSome? (fun l => ((s.ln l).waits.find? (fun w => mine w.pay)).map (fun w => 256 * l + w.slot)) with
  | some k => some k
  | none =>
    match (s.node n).core.retry with
    | some r => some r.1
    | none => (s.flight.find? (fun k => rtType k.route == tyKnot && mine k.pay)).map (fun k => fld k.pay 119 104)

/-- The lowest-numbered input of an M core whose messages of the step fall short of the report's figure (R254, R443). -/
def shortInput (s : State) (p : Nat) (nd : Node) : Option Nat :=
  match (s.part p).pl.image with
  | none => none
  | some img =>
    let ls := (cfgSlots nd.pat nd.pat.ctag).map nd.pat.logical
    (List.find? (fun (e : Nat × Ep) => img.report.epMsgs.any (fun r => ls.contains r.1 && r.2.1 == e.1 && decide ((e.2.msgs - e.2.msgsAtMark).toNat < r.2.2))) nd.ins).map (·.1)

/-- Lowest-numbered input that is not sealed, where one is (R241, R443). -/
def seamInput (nd : Node) : Option Nat :=
  let ins := nd.ins.filter (fun e => inMode e.2.desc != 0 && !e.2.nextOnly)
  if ins.any (fun e => nd.pat.isSealed e.1) then (ins.find? (fun e => !nd.pat.isSealed e.1)).map (·.1) else none

/-- The edge of the blocked operation of a V or F core, if it has one (R443). -/
def coreEdge (s : State) (p : Nat) (n : NodeId) (nd : Node) : Option WaitEdge :=
  match nd.core.blocked with
  | some (.send ep ..) => some (edgeOut nd n ep)
  | some (.recv ep ..) => some (edgeIn nd n ep roleEmpty)
  | some (.recvAny mask ..) => ((List.range 64).find? (fun e => (mask >>> e) % 2 == 1)).map (fun e => edgeIn nd n e roleEmpty)
  | some (.knotPost _ knot _) => some (edgeKnot s p n knot)
  | some (.knotWait t) => (awaitedKnot s p n t).map (edgeKnot s p n)
  | _ => none
/-- The edge of an M core that waits for operands or for a channel (R443). -/
def arrayEdge (s : State) (p : Nat) (n : NodeId) (nd : Node) : Option WaitEdge :=
  if mState nd = 2 then (shortInput s p nd).map (fun e => edgeIn nd n e roleEmpty)
  else if mState nd = 3 then (nd.mc.drains.find? (·.waiting)).map (fun d => edgeOut nd n d.chan)
  else none
/-- The edge of an L node that waits for credit, or for a STEP_END (R302, R443). -/
def serviceEdge (n : NodeId) (nd : Node) : Option WaitEdge :=
  match nd.ln.outbox with
  | m :: _ => some (edgeOut nd n m.ep)
  | [] => ((stepSet nd.pat).find? (fun e => !nd.ln.stepEnds.contains e)).map (fun e => edgeIn nd n e roleEmpty)

/-- What a node of a region waits on (R443). A node that has stopped on a fault, or ended its step, has no edge; a seam wait comes before the
wait that shows it. -/
def waitEdge (s : State) (p : Nat) (n : NodeId) : WaitEdge :=
  let nd := s.node n
  if nd.halted || nd.fenced then .stuck
  else if nd.pat.phase == .waitCommit || nd.pat.current.toNat != (s.part p).next then .ended
  else
    match seamInput nd with
    | some e => edgeIn nd n e roleSeam
    | none =>
      match (match kindOf n with | .m => arrayEdge s p n nd | .l => serviceEdge n nd | _ => coreEdge s p n nd) with
      | some e => e
      | none => if nd.core.blocked == some .mark then .ended
        else if Table.find? (s.part p).tr.quietPc n = some (progIndex n nd) then .stuck else .free

/-- How a path ends (R444). -/
inductive PathEnd where
  | cycle (from' : Nat)
  | knot
  | external
  | ended
  | stuck
  | open'
  deriving DecidableEq, Repr

/-- The path from a node: its nodes, what its edges name, and how it ends (R444). -/
def followPath (look : NodeId → WaitEdge) : Nat → NodeId → List NodeId → List NamedEdge → List NodeId × List NamedEdge × PathEnd
  | 0, _, ns, es => (ns, es, .open')
  | fuel + 1, n, ns, es =>
    match look n with
    | .to m e =>
      match ns.findIdx? (· == m) with
      | some i => (ns, es ++ [e], .cycle i)
      | none => followPath look fuel m (ns ++ [m]) (es ++ [e])
    | .knot e => (ns, es ++ [e], .knot)
    | .external e => (ns, es ++ [e], .external)
    | .ended => (ns, es, .ended)
    | .stuck => (ns, es, .stuck)
    | .free => (ns, es, .open')

/-- A node with an edge. -/
def WaitEdge.blocked (e : WaitEdge) : Bool := match e with | .to .. | .knot _ | .external _ => true | _ => false

/-- What the examination of a hang finds (R443, R444): class, path, named edges, blocked nodes and suspect. -/
structure Examined where
  cls : Nat
  path : List NodeId
  named : List NamedEdge
  blocked : Nat
  suspect : Option NodeId
  deriving DecidableEq, Repr

/-- The class of a path (R444), NOT_HUNG apart. -/
def pathClass (es : List NamedEdge) (e : PathEnd) : Nat :=
  let ring := match e with | .cycle i => es.drop i | _ => []
  if es.any (fun x => x.role == roleSeam) then 2
  else if !ring.isEmpty && ring.all (fun x => x.role == roleFull) then 3
  else if es.any (fun x => x.role == roleLetout) then 4
  else if ring.any (fun x => x.role == roleFull) then 5
  else match e with | .ended => 6 | .knot => 7 | .stuck => 8 | _ => 9

/-- The steward's examination of a held region (R443, R444, R449). With no node blocked it starts from the lowest stuck node. -/
def examine (s : State) (p : Nat) : Examined :=
  let region := (s.region p).foldl setIns []
  let look := waitEdge s p
  let path (n : NodeId) := followPath look (region.length + 1) n [n] []
  let blocked := region.filter (fun n => (look n).blocked)
  if !blocked.isEmpty && blocked.all (fun n => (path n).2.2 == .external) then ⟨1, [], [], blocked.length, none⟩
  else
    match blocked.head?.or (region.find? (fun n => look n == .stuck)) with
    | none => ⟨9, [], [], 0, region.head?⟩
    | some n =>
      let r := path n
      let c := pathClass r.2.1 r.2.2
      let sus := if c = 8 then r.1.getLast? else if c = 9 then some n else none
      ⟨c, r.1, r.2.1.filter (fun e => e.role == roleFull) ++ r.2.1.filter (fun e => e.role != roleFull), blocked.length, sus⟩

/-- A named edge of a hang record (R448); coordinates of a host end read 0xFF. -/
def namedBytes (e : NamedEdge) : List Byte :=
  let at' (n : NodeId) : List Byte := if nodeExists n then [BitVec.ofNat 8 (nx n), BitVec.ofNat 8 (ny n)] else [0xFF, 0xFF]
  at' e.src ++ leBytes 1 e.srcEp ++ at' e.dst ++ leBytes 1 e.dstEp ++ leBytes 1 e.role ++ [0]

/-- A hang record (R448). -/
def hangRecord (s : State) (p id : Nat) (x : Examined) (outcome flags : Nat) : List Byte :=
  let named := (x.named.take 4).flatMap namedBytes
  leBytes 4 id ++ leBytes 1 p ++ leBytes 1 x.cls ++ leBytes 1 outcome ++ leBytes 1 flags ++ leBytes 4 (s.part p).next ++ leBytes 4 x.blocked ++
  (named ++ List.replicate (32 - named.length) 0) ++ leBytes 8 (s.stamp (panelOf s.stewardAt)) ++
  (match x.suspect with | some n => [BitVec.ofNat 8 (nx n), BitVec.ofNat 8 (ny n)] | none => [0xFF, 0xFF]) ++ [0xFF, 0] ++ List.replicate 4 0

/-- A byte of a logged hang record changed (R448). -/
def setHangByte (s : State) (id off : Nat) (v : Nat) : State :=
  s.updFaults (fun q => { q with hangLog := q.hangLog.map (fun r => if leNat (r.take 4) = id then setNth r off (BitVec.ofNat 8 v) else r) })
/-- Outcome, suspect slot and reset level of a hang settled (R448). -/
def settleHang (s : State) (id outcome slot level : Nat) : State := setHangByte (setHangByte (setHangByte s id 6 outcome) id 58 slot) id 59 level

/-- The items of a sampled node (R446). -/
def sampleNode (n : NodeId) (nd : Node) : List ScanItem :=
  let t := nd.pat.current.toNat
  let banks := (List.range (padBytes n / 0x100000)).map (fun b => (⟨0x21, b, t, (linesOf (0x100000 * b) 4096).flatMap nd.pad.line⟩ : ScanItem))
  let rings := (nd.ins.filter (fun e => inMode e.2.desc == 1)).map (fun e =>
    (⟨0x22, e.1, t, (e.2.recs.take 64).flatMap (fun r => leBytes 16 r.hdr.toNat ++ List.replicate 48 0)⟩ : ScanItem))
  let slots := nd.pat.loaded.map (fun k => (⟨0x23, k, t, pad16 ((nd.pat.image k).bytes 0 256 ++ leBytes 8 (slotWord nd.pat k).toNat)⟩ : ScanItem))
  nodeItem nd :: epItems n nd ++ banks ++ rings ++ slots

/-- The hang sample (R446, R447), kept in HANG_SAMPLE: a protected partition's is sealed but for its hang item. -/
def takeSample (s : State) (p : Nat) (rec' : List Byte) (path : List NodeId) : State :=
  let head := itemBytes s.stewardAt ⟨0x20, 0, (s.part p).next, rec'⟩
  let body := (path.take 64).flatMap (fun n => (sampleNode n (s.node n)).flatMap (itemBytes n)) ++ itemBytes s.stewardAt ⟨0xFF, 0, (s.part p).next, []⟩
  let r := if (s.cfg p).prot then sealBlob s p 1 body else (s, body)
  r.1.updPart p (fun x => { x with tr := { x.tr with sample := head ++ r.2 } })

/-- Slots of the suspect node that issued in the hung step (R449): those in which its entry or a switch shows issue. -/
def suspectSlots (nd : Node) : List Nat :=
  if 1 < nd.pat.slotSwitches.toNat then cfgSlots nd.pat nd.pat.ctag else setIns [nd.pat.home] nd.pat.active

/-- Every node of a region held, as STOP with 0xFFFF_FFFE has it (R404). -/
def holdRegion (s : State) (p : Nat) : State :=
  (s.region p).foldl (fun s n => s.updNode n (fun d => if d.fenced then d else { d with pat := { d.pat with held := true } })) s
/-- The hold withdrawn (R404, R445). -/
def releaseRegion (s : State) (p : Nat) : State :=
  (s.region p).foldl (fun s n => s.updNode n (fun d => { d with pat := { d.pat with held := false } })) s

/-- A pattern of the region is flagged NONDET or UNCHECKED (R256, R445). -/
def nondetImage (s : State) (p : Nat) : Bool := match (s.part p).pl.image with | some i => i.report.flags.any (fun f => f % 4 != 0) | none => false

/-- The attempts of a suspect replay decide (R451). -/
def concludeSuspect (s : State) (p id : Nat) (q : Suspect) : State :=
  let s := s.updPart p dropHang
  let x := s.part p
  match q.reproduced, q.elsewhere with
  | [], false => orderReplay (logReset (resetInPlace (settleHang s id 4 0xFF 2) p q.node) p 2) p none
  | [k], false =>
    let again := match x.tr.namedSlot with | some (m, j, t) => m == q.node && j == k && decide (x.next < t + 64) | none => false
    if again then failPart (settleHang s id 2 k 1) p 0x07
    else
      let s := s.updPart p (fun x => { x with tr := { x.tr with namedSlot := some (q.node, k, x.next) } })
      let s := logReset (settleHang s id 5 k 1) p 1
      let copy : Option Memory := (s.part p).pl.image.bind (fun img =>
        (img.place (s.part p).pl.placement).bind (fun pl => ((patternsAt img pl (s.node q.node).pat.ctag q.node)[k]?).map (placedSlot img pl)))
      let s := match copy with
        | some m => s.updNode q.node (fun d => { d with pat := { d.pat with slots := Table.put d.pat.slots k m } })
        | none => s
      orderReplay s p none
  | _, _ => rePlace (fenceNode (settleHang s id 6 0xFF 0) q.node 0x26 true) p

/-- An attempt of a suspect replay ends (R450): the next slot is tried, or the attempts decide. -/
def endAttempt (s : State) (p : Nat) (reproduced elsewhere : Bool) : State :=
  match (s.part p).tr.hang with
  | some h =>
    match h.suspect with
    | some q =>
      match q.slots with
      | k :: rest =>
        let q := { q with slots := rest, reproduced := if reproduced then q.reproduced ++ [k] else q.reproduced, elsewhere := q.elsewhere || elsewhere }
        if rest.isEmpty then concludeSuspect s p h.id q
        else orderReplay (s.updPart p (fun x => { x with tr := { x.tr with hang := some { h with suspect := some q } } })) p none
      | [] => s
    | none => s
  | none => s

/-- What the steward does about a hang it has examined (R445). -/
def actOnHang (s : State) (p id : Nat) (x : Examined) : State :=
  if x.cls = 2 then orderReplay (settleHang s id 3 0xFF 0) p none
  else if x.cls ≤ 7 then
    if nondetImage s p && (s.part p).tr.hangBefore != some (x.cls, x.named) then
      orderReplay (s.updPart p (fun y => { y with tr := { y.tr with hangBefore := some (x.cls, x.named) } })) p none
    else failPart (settleHang s id 2 0xFF 0) p 0x07
  else
    match x.suspect with
    | none => s
    | some n =>
      let nd := s.node n
      let q : Suspect := { node := n, slots := suspectSlots nd, slotAt := nd.pat.active, pcAt := progIndex n nd, reproduced := [], elsewhere := false }
      orderReplay (s.updPart p (fun y => { y with tr := { y.tr with hang := some ⟨id, x.cls, x.named, some q⟩ } })) p none

/-- A hang declared (R441, R444 to R448): held, examined, recorded, sampled and acted on. -/
def declareHang (s : State) (p : Nat) : State :=
  let s := holdRegion s p
  let x := examine s p
  let id := s.stw.f.hangs + 1
  let flags := (if x.cls = 1 then 0 else 1 + 2 * b2n (s.cfg p).prot) + (if 64 < x.path.length then 4 else 0) + (if 4 < x.named.length then 8 else 0)
  let rec' := hangRecord s p id x (if x.cls = 1 then 1 else 0) flags
  let s := s.updFaults (fun q => { q with hangs := id, hangLog := (q.hangLog ++ [rec']).drop (q.hangLog.length - 255) })
  let s := s.log (s.eventFor 14 x.cls p)
  let s := s.updPart p (fun y => { y with tr := { y.tr with quiet := [] } })
  if x.cls = 1 then (releaseRegion s p).updPart p (fun y => { y with tr := { y.tr with idleDeclared := satAdd y.tr.idleDeclared 1 } })
  else actOnHang (takeSample s p rec' x.path) p id x

/-- QUIET_RECEIPT (R440, R441, R450, R459): panels whose nodes have consumed since are ACTIVE again; with every panel quiet the hang is declared, or
a suspect replay's attempt has ended. A fault event on its way is handled first. -/
def execQuietReceipt (p : Nat) (s : State) : Res :=
  if 16 ≤ p then .fault .noSuchUnit
  else
    .next (
      let x := s.part p
      let still := x.tr.quiet.filter (fun k => Table.find? x.tr.quietAt k == some (panelEvents s p k))
      let s := s.updPart p (fun x => { x with tr := { x.tr with quiet := still } })
      let panels := regionPanels s p
      let fault := s.stw.f.notes.any (fun q => q.ev.part == p || (s.region p).contains q.node)
      if !windowRuns s p || panels.isEmpty || fault || !panels.all still.contains then s
      else if suspectRuns x then endAttempt (s.updPart p (fun x => { x with tr := { x.tr with quiet := [] } })) p false false
      else declareHang s p)

/-- CONTEXT_WATCH_FIRE (R450, R451): the suspect node has issued nothing for CTX_WINDOW while the slot under trial is active. -/
def execContextWatchFire (p : Nat) (s : State) : Res :=
  if 16 ≤ p then .fault .noSuchUnit
  else
    .next (
      match (s.part p).tr.hang with
      | some h =>
        match h.suspect with
        | some q =>
          let nd := s.node q.node
          if (s.part p).state ≠ .running || q.slots.head? != some nd.pat.active then s
          else
            let same := decide (progIndex q.node nd = q.pcAt)
            endAttempt s p same (!same)
        | none => s
      | none => s)

/-- STEP_VETO_REPORT (R233, R450): the steward replays a vetoed step; in a suspect replay the attempt ends without reproducing the hang. -/
def execStepVetoReport (p : Nat) (s : State) : Res :=
  if 16 ≤ p then .fault .noSuchUnit
  else
    let x := s.part p
    .next (
      if x.tr.vetoed.isNone || x.state != .running then s
      else if suspectRuns x then endAttempt s p false false
      else orderReplay s p none)

end Sys2Proof.Machine
end

