-- ==== Sys2Proof/Machine/Jobs.lean ====
section
/-! DEFINITION. Loading, arming and running a partition: what PARTITION_CMD, IMAGE_LOAD and a ring's IMAGE do, and the arm barrier (R217, R219,
R243, R325, R328, R335, R425, R454, R516, R517, R573, R574, R624, R626, R675). An action answers an abort code, 0 when it is accepted. -/

namespace Sys2Proof.Machine
open Sys2Proof

/-- The clusters' nodes take the partition's owner tags (R165). -/
def assignOwners (s : State) (p : Nat) : State :=
  let c := s.cfg p
  c.nodes.foldl (fun s n => s.updNode n (fun d => assignOwner n p c.dom c.prot d)) s

/-- A partition that waits for its tenant's keys (R574). -/
def awaitsKeys (s : State) (p : Nat) : Bool := (s.cfg p).prot && !(s.part p).keys.installed

/-- The admitted image goes to the nodes of a usable placement, the seed with it (R142, R216, R422, R425, R675). -/
def distribute (s : State) (p : Nat) : State :=
  match (s.part p).pl.image with
  | none => s
  | some img =>
    let s := s.updPart p (fun x => { x with seedUsed := if (s.cfg p).prot then x.keys.seed else x.tenantSeed })
    let s := assignOwners s p
    let tag := firstTag img
    match choosePlacement s p img tag with
    | none => failPart s p 0x06
    | some i =>
      match img.place i with
      | none => failPart s p 0x06
      | some pl => loadPlacement s p img pl i tag

/-- IMAGE_LOAD's effect (R211, R217, R425, R516, R553, R574): a refused image changes nothing; an admitted one puts the partition in LOADING,
where a protected partition without keys waits. From EMPTY a new job's step count and watermark begin at 0. -/
def beginLoad (s : State) (p : Nat) (img : Image) : State × Nat :=
  let x := s.part p
  if decide (16 ≤ p) || !(s.cfg p).defined || !(x.state == .empty || x.state == .faulted) then (s, 0x03000001)
  else
    match admission s p img with
    | some code => (s, code)
    | none =>
      let again := x.state == .faulted
      let s := if again then undoStep s p else s.updIo (fun i => { i with watermark := Table.put i.watermark p 0, offset := Table.put i.offset p 0 })
      let s := s.updPart p (fun x => { x with
        fromFaulted := again
        stepsSinceStart := if again then x.stepsSinceStart else 0
        pl := { x.pl with image := some img, digest := imageDigest img, nextImage := none } })
      let wait := awaitsKeys s p
      let s := setPart s p .loading (some (if wait then 0x0B else 0x00))
      (if wait then s else distribute s p, 0)

/-- The configuration change due for the history is recorded with the step that starts (R325). -/
def recordHistory (s : State) (p t : Nat) : State :=
  let g := s.stw.d.gen
  s.updPart p (fun x => match x.histDue with
    | some k => { x with histDue := none, rep := { x.rep with history := x.rep.history ++ [(t, g, k)] } }
    | none => x)

/-- The step knots of the placement stand allocated at 0. -/
def zeroStepKnots (s : State) (p : Nat) : State :=
  let ks := (s.part p).pl.stepKnots
  [ks.1, ks.2].foldl (fun s k => s.setKnot k { alloc := true, sat := false, part := p, count := 0 }) s

/-- Every node of a region at a committed step, with nothing of a later one in its bobbins (R219, R300). -/
def setCommitted (s : State) (p : Nat) (com : U32) : State :=
  (s.region p).foldl (fun s n => s.updNode n (fun d => { d with
    pat := { d.pat with committed := com, current := com + 1 }
    ln := { d.ln with bobbins := Table.mapVals (fun _ b => if Bobbin.part b = p then { b with end0 := 0, end1 := 0 } else b) d.ln.bobbins } })) s

/-- The host's ends armed anew under another image: the output goes on from the watermark (R425, R548, R550). -/
def hostRearm (s : State) (p : Nat) : State :=
  let o := s.io.mark p
  (hostArm s p).updIo (fun x => { x with offset := Table.put x.offset p o, watermark := Table.put x.watermark p o })

/-- Counts and records of a partition cleared when it is armed for a new job (R335, R438, R463). -/
def clearJob (x : Partition) : Partition :=
  { x with rep := {}, tr := {}, jobEnd := none, jobDone := false, pauseReq := none, seam := none, committed := 0xFFFFFFFF
           mir := { x.mir with waiting := none, digests := [], twinDigests := [], differed := none, leaves := [], exchange := [], exchanged := none, restoring := [] }
           pl := { x.pl with resumes := 0, lastResumeUs := 0, hostKnots := [] } }

/-- ARM_BARRIER_COMPLETE (R178, R217 to R219, R425, R517): a loaded partition arms, or, loaded from FAULTED, runs on from its last committed
step. A pattern that the loader refuses stops it with a program fault. -/
def execArmBarrierComplete (p : Nat) (s : State) : Res :=
  if 16 ≤ p then .fault .noSuchUnit
  else
    .next (
      let x := s.part p
      match x.pl.image with
      | none => s
      | some img =>
        if x.state ≠ .loading || awaitsKeys s p || x.pl.region.isEmpty then s
        else
          let tag := firstTag img
          let fs := armFaults s x.pl.region tag
          if !fs.isEmpty then failPart (recordArmFaults s fs) p 0x0A
          else
            let s := zeroStepKnots ((x.pl.region).foldl (fun s n => s.updNode n (armNode n tag)) s) p
            if x.fromFaulted then
              let s := hostRearm (setCommitted s p x.committed) p
              let s := recordHistory (setPart (s.updPart p (fun x => { x with fromFaulted := false, jobEnd := none, jobDone := false })) p .running none) p x.next
              restart s p false
            else
              let s := setCommitted (hostArm s p) p 0xFFFFFFFF
              setPart (s.updPart p clearJob) p .armed none)

/-- A region begins the step after the committed one, with the host's inputs (R219, R547). -/
def beginSteps (s : State) (p : Nat) (com : U32) : State :=
  let t := (com + 1).toNat
  let s := (s.region p).foldl (fun s n => s.updNode n (fun d => if d.fenced then d else
    let d := d.startStep n t
    { d with pat := { d.pat with timingAt := timingCounts d.pad } })) s
  resendInputs (recordHistory s p t) p t

/-- A shadow may start: its twin is LOST, or a detach has handed it over (R617). -/
def shadowMayStart (s : State) (p : Nat) : Bool := s.twin.state % 16 == twLost || (s.part p).mir.handed

/-- START (R516, R573, R617, R624, R626): an ARMED partition runs from step 0; a shadow, or a partition handed over, from MIRROR_COMMITTED + 1. -/
def cmdStart (s : State) (p : Nat) : State × Nat :=
  let x := s.part p
  let shadow := (s.cfg p).shadow
  if !(s.cfg p).defined || x.state != .armed || (shadow && !shadowMayStart s p) then (s, 0x03000001)
  else
    let com := if shadow || x.mir.handed then x.mir.committed else 0xFFFFFFFF
    let s := if shadow then s.updDict (fun d => { d with active := d.active.updPart p (fun c => { c with shadow := false }), shadow := d.shadow.updPart p (fun c => { c with shadow := false }) })
      else s
    let s := s.updPart p (fun x => { x with
      committed := com, stepsSinceStart := 0, jobDone := false, jobEnd := none
      mir := { x.mir with handed := false }
      keys := if (s.cfg p).prot then { x.keys with starts := x.keys.starts + 1, rewinds := 0 } else x.keys })
    (beginSteps (setPart (setCommitted s p com) p .running none) p com, 0)

/-- PAUSE (R516): the partition stops after its next commit. -/
def cmdPause (s : State) (p : Nat) : State × Nat :=
  if (s.part p).state ≠ .running then (s, 0x03000001) else (s.updPart p (fun x => { x with pauseReq := some (x.pauseReq.getD 0x0C) }), 0)

/-- RESUME (R328, R516): a PAUSED partition runs on from its last committed step, on the placement that the fault map now allows. -/
def cmdResume (s : State) (p : Nat) : State × Nat :=
  let x := s.part p
  if x.state ≠ .paused then (s, 0x03000001)
  else
    let s := undoStep s p
    let r := restorePoison s p
    if !r.2 then (failPart r.1 p 0x05, 0)
    else
      match x.pl.image with
      | none => (s, 0x03000001)
      | some img =>
        match choosePlacement r.1 p img (s.node x.pl.commitHome).pat.ctag with
        | none => (failPart r.1 p 0x06, 0)
        | some i =>
          let s := if i = x.pl.placement && x.pl.region.all (fun n => !(s.node n).fenced) then r.1 else moveTo r.1 p img i false
          let s := recordHistory (setPart (s.updPart p (fun x => { x with jobDone := false })) p .running none) p x.next
          (if (s.part p).mir.restoring.isEmpty then restart s p false else s, 0)

/-- UNLOAD (R454, R516, R517). -/
def cmdUnload (s : State) (p : Nat) : State × Nat :=
  if [PartState.loading, .armed, .paused, .faulted].contains (s.part p).state then (beginReset s p 1, 0) else (s, 0x03000001)

/-- FORCE_SEAM (R243, R516, R517). -/
def cmdForceSeam (s : State) (p : Nat) : State × Nat :=
  let x := s.part p
  if x.state ≠ .running || x.seam.isNone then (s, 0x03000001) else (orderReplay s p none, 0)

end Sys2Proof.Machine
end

