-- ==== Sys2Proof/Machine/Rings.lean ====
section
/-! DEFINITION. Submission rings and what their entries do (R199, R533, R539, R542 to R547, R551, R556 to R559, R562, R563). -/

namespace Sys2Proof.Machine
open Sys2Proof

/-- A function and one of its rings, as BAR2 has them (R538). -/
def ringOk (f r : Nat) : Bool := decide (f ≤ 16) && decide (r < ringCount f)
/-- A function that the host can reach (R533). -/
def fnLive (s : State) (f : Nat) : Bool := f == 0 || (s.fn f).enabled

/-- The entry that a ring starts next, unless FENCE holds it (R543, R545). -/
def nextEntry (x : Ring) : Option SqEntry :=
  match x.waiting with
  | [] => none
  | e :: _ => if bit e.flags 0 && !x.started.isEmpty then none else some e
/-- The front entry leaves the queue. -/
def popEntry (s : State) (f r : Nat) : State := s.updRing f r (fun x => { x with waiting := x.waiting.drop 1 })

/-- Front entries that complete as they start: of an undefined partition, or of an undefined OP (R533, R544). -/
def dropBad (f r : Nat) : Nat → State → State
  | 0, s => s
  | fuel + 1, s =>
    match nextEntry (s.ring f r) with
    | none => s
    | some e =>
      if !(s.cfg (ringPart f (s.ring f r))).defined then dropBad f r fuel (complete (popEntry s f r) f r e 0x03000001 0)
      else if 7 < e.op.toNat then dropBad f r fuel (complete (popEntry s f r) f r e 0x01000005 0)
      else s
def settleRing (f r : Nat) (s : State) : State := dropBad f r (s.ring f r).waiting.length s

/-- The n entries that the hem fetches: those listed, and zeros past them, as the operand leaves off what is zero at its end. -/
def fetched (n : Nat) (entries : List SqEntry) : List SqEntry := entries.take n ++ List.replicate (n - entries.length) ⟨0, 0, 0, 0, 0, 0, 0, 0, 0, 0⟩
/-- The n bytes of host memory that an entry names, listed in the same way. -/
def hostBytes (n : Nat) (data : List Byte) : List Byte := data.take n ++ List.replicate (n - data.length) 0

/-- SQ_TAIL_WRITE (R542, R563): the hem fetches the entries from SQ_HEAD to the new tail; `entries` are what the host has put there. A ring
that is not running, or waits for IDE, takes the tail alone and fetches with the next doorbell. -/
def execSqTailWrite (f ring : Nat) (tail : U16) (entries : List SqEntry) (s : State) : Res :=
  if !ringOk f ring then .fault .noSuchUnit
  else
    let x := s.ring f ring
    let t := tail.toNat % x.sqSize
    if !fnLive s f then .next s
    else if !x.enabled || (s.fn f).ideWait then .next (s.updRing f ring (fun x => { x with sqTail := tail.toNat }))
    else
      let n := (t + x.sqSize - x.sqHead % x.sqSize) % x.sqSize
      .next (settleRing f ring (s.updRing f ring (fun x => { x with sqTail := tail.toNat, sqHead := t, waiting := x.waiting ++ fetched n entries })))

/-- A row that starts the entry at the front of a ring: `go` is the operation on the partition. It acts only when that entry is of the row's OP
and may start. -/
def startEntry (f r op : Nat) (go : SqEntry → Nat → State → State) (s : State) : Res :=
  if !ringOk f r then .fault .noSuchUnit
  else
    let s := settleRing f r s
    match nextEntry (s.ring f r) with
    | none => .next s
    | some e =>
      if e.op.toNat ≠ op then .next s
      else .next (settleRing f r (go e (ringPart f (s.ring f r)) (popEntry s f r)))
/-- An entry started, to complete later. -/
def keepEntry (s : State) (f r : Nat) (e : SqEntry) (data : List Byte) : State := s.updRing f r (fun x => { x with started := x.started ++ [(e, data)] })

/-- NOP (R544). -/
def execSqNop (f ring : Nat) (s : State) : Res := startEntry f ring 0x00 (fun e _ s => complete s f ring e 0 0) s

/-- Key of sealed input (R551, R572). -/
def inputKey (x : Keys) : List Byte := hkdf384 [] x.master [0x49, 0x4E, 0x50, 0x55, 0x54] 32
/-- An INPUT whose record the receiving endpoint could not hold (R179, R547). -/
def inputTooLong (s : State) (p : Nat) (e : SqEntry) : Bool :=
  let d := (s.hostIn (hostKey p (inputEp e))).desc
  decide (8192 < e.len.toNat) || (outMode d != 0 && decide (64 * outMaxrec d < recBytes e.len.toNat))
/-- The bytes of an INPUT as its record carries them, or the status it is refused with (R551). -/
def inputBytes (s : State) (p : Nat) (e : SqEntry) (data : List Byte) : List Byte ⊕ Nat :=
  let prot := (s.cfg p).prot
  if inputTooLong s p e then .inr 0x02000001
  else if prot != bit e.flags 2 then .inr 0x01000004
  else if !prot then .inl (hostBytes e.len.toNat data)
  else
    match gcmOpen (inputKey (s.part p).keys) (leBytes 12 e.nonce.toNat) [] (hostBytes e.len.toNat data) (leBytes 16 e.gtag.toNat) with
    | some d => .inl d
    | none => .inr 0x05000003

/-- INPUT (R544, R545, R547, R551, R619): the record goes out in a running partition, or with its next start; a mirrored partition's goes to the
twin as well. -/
def execInput (f ring : Nat) (data : List Byte) (s : State) : Res :=
  startEntry f ring 0x01 (fun e p s =>
    match inputBytes s p e data with
    | .inr st => complete s f ring e st 0
    | .inl d =>
      let s := keepEntry s f ring e d
      let rec' := inputRec (e, d)
      let s := if mirrored s p then
          sendOn s p fInput (hemStream p) rec'.step (mkWord 128 [(0, inputEp e), (8, rec'.token), (16, rec'.tokval)]) d
        else s
      if (s.part p).state = .running then queueHost s p (inputEp e) rec' else s) s

/-- LENGTH of a COPY (R544). -/
def copyLenOk (e : SqEntry) : Bool := decide (1 ≤ e.len.toNat) && decide (e.len.toNat ≤ 0x40000000)

/-- COPY_IN (R544, R546, R556): host bytes go to partition addresses; the pages they need are mapped (log 48). -/
def execCopyIn (f ring : Nat) (data : List Byte) (s : State) : Res :=
  startEntry f ring 0x02 (fun e p s =>
    if !copyLenOk e then complete s f ring e 0x02000001 0
    else if (s.cfg p).prot then complete s f ring e 0x01000004 0
    else startCopy (keepEntry (mapRange s p e.maddr.toNat e.len.toNat) f ring e []) f ring e (hostBytes e.len.toNat data)) s

/-- COPY_OUT (R544, R546, R556). -/
def execCopyOut (f ring : Nat) (s : State) : Res :=
  startEntry f ring 0x03 (fun e _ s =>
    if !copyLenOk e then complete s f ring e 0x02000001 0 else startCopy (keepEntry s f ring e []) f ring e []) s

/-- The range of an import scrubbed as at release (R289, R558). -/
def scrubRange (s : State) (p pa n : Nat) : State :=
  (pieces pa n).foldl (fun s x =>
    match xlate s p x.1 true with
    | .lining a _ => scrubLining s a x.2
    | .bolt o _ _ => scrubBolt s o x.2
    | .unmapped => s) s
/-- An import leaf recorded (R586): it replaces every leaf that its range overlaps. -/
def addLeaf (x : Keys) (a n : Nat) (data : List Byte) : Keys :=
  { x with leaves := x.leaves.filter (fun l => decide (l.1 + l.2.1 ≤ a) || decide (a + n ≤ l.1)) ++ [(a, n, sha384 (leBytes 8 a ++ leBytes 4 n ++ data))], holdsMemory := true }
def importKey (x : Keys) : List Byte := hkdf384 [] x.master [0x49, 0x4D, 0x50, 0x4F, 0x52, 0x54] 32
/-- LENGTH and MADDR of an IMPORT (R558). -/
def importOk (e : SqEntry) : Bool := copyLenOk e && e.len.toNat % 4096 == 0 && e.maddr.toNat % 4096 == 0

/-- IMPORT (R544, R558, R586): sealed weights verified, then written; a tag that fails leaves the range scrubbed. -/
def execImport (f ring : Nat) (data : List Byte) (s : State) : Res :=
  startEntry f ring 0x04 (fun e p s =>
    let k := (s.part p).keys
    let a := e.maddr.toNat
    let n := e.len.toNat
    if !(s.cfg p).prot || !k.installed then complete s f ring e 0x03000001 0
    else if !importOk e then complete s f ring e 0x02000001 0
    else
      let s := mapRange s p a n
      match gcmOpen (importKey k) (leBytes 12 e.nonce.toNat) (leBytes 8 a ++ leBytes 4 n) (hostBytes n data) (leBytes 16 e.gtag.toNat) with
      | none => complete (scrubRange s p a n) f ring e 0x05000003 0
      | some d => startCopy (keepEntry (s.updPart p (fun x => { x with keys := addLeaf x.keys a n d })) f ring e []) f ring e d) s

/-- IMAGE (R516, R544): as IMAGE_LOAD; `img` is what the host's or the partition's bytes spell. -/
def execSqImage (f ring : Nat) (img : Image) (s : State) : Res :=
  startEntry f ring 0x05 (fun e p s =>
    let r := beginLoad s p img
    if r.2 ≠ 0 then complete r.1 f ring e r.2 0
    else if (r.1.part p).state = .loading then keepEntry r.1 f ring e []
    else complete r.1 f ring e 0 0) s

/-- A ticket that no knot request of the hem holds. -/
def freeTicket (s : State) : Option Nat := (List.range 256).find? (fun t => !s.io.knots.any (fun k => k.1 == t))

/-- KNOT entries of one operation (R199, R443, R544, R559): sent to the knot's L node; an invalid identifier completes at once. One that finds
every ticket taken waits at the front. -/
def knotEntry (f ring op : Nat) (s : State) : Res :=
  match nextEntry (settleRing f ring s |>.ring f ring) with
  | some e =>
    if e.op == 0x06 && (entryKnotOp e != op || (freeTicket s).isNone) then
      if !ringOk f ring then .fault .noSuchUnit
      else
        let bad := entryKnotOp e == 0 || decide (4 < entryKnotOp e)
        .next (if bad && op == 1 then complete (popEntry (settleRing f ring s) f ring) f ring e 0x02000001 0 else settleRing f ring s)
    else startEntry f ring 0x06 (fun e p s =>
      let id := fld e.arg 31 16
      if !knotValid id then complete s f ring e 0x02000001 0
      else
        match freeTicket s with
        | none => s
        | some t =>
          let s := (keepEntry s f ring e []).updIo (fun x => { x with knots := x.knots ++ [(t, f, ring, e)] })
          let s := s.updPart p (fun x => { x with pl := { x.pl with hostKnots := setIns x.pl.hostKnots id } })
          hemKnot s p op id t (if op = 1 then 0 else e.len.toNat)) s
  | none => startEntry f ring 0x06 (fun _ _ s => s) s
def execSqKnotArrive (f ring : Nat) (s : State) : Res := knotEntry f ring 1 s
def execSqKnotAdd (f ring : Nat) (s : State) : Res := knotEntry f ring 2 s
def execSqKnotWait (f ring : Nat) (s : State) : Res := knotEntry f ring 3 s
def execSqKnotReset (f ring : Nat) (s : State) : Res := knotEntry f ring 4 s

/-- STEPWAIT (R544, R546). -/
def execStepwait (f ring : Nat) (s : State) : Res :=
  startEntry f ring 0x07 (fun e p s =>
    let x := s.part p
    if x.state ≠ .running ∨ e.step.toNat < x.next then complete s f ring e 0 x.committed.toNat else keepEntry s f ring e []) s

/-- CQ_HEAD_WRITE (R542): waiting completions take the slots it frees. -/
def execCqHeadWrite (f ring : Nat) (head : U16) (s : State) : Res :=
  if !ringOk f ring then .fault .noSuchUnit
  else if !fnLive s f then .next s
  else
    let s := s.updRing f ring (fun x => { x with cqHead := head.toNat % x.cqSize })
    .next (flushComps f ring (s.ring f ring).comps.length s)

/-- RING_CFG's writable fields (R539); PARTITION is reserved in a VF. -/
def ringCfgBits (f : Nat) (v : U64) : U64 :=
  mkWord 64 [(63, fld v 63 63), (44, if f = 0 then fld v 47 44 else 0), (38, fld v 43 38), (16, fld v 20 16), (8, fld v 12 8)]
/-- RING_CFG_WRITE (R539): while the ring runs, only a write that clears ENABLE counts. Enabling begins both rings at their first entry. -/
def execRingCfgWrite (f ring : Nat) (v : U64) (s : State) : Res :=
  if !ringOk f ring then .fault .noSuchUnit
  else
    .next (
      if !fnLive s f then s
      else s.updRing f ring (fun x =>
        let w := ringCfgBits f v
        let ok := decide (6 ≤ fld v 12 8 ∧ fld v 12 8 ≤ 16 ∧ 6 ≤ fld v 20 16 ∧ fld v 20 16 ≤ 16)
        if x.enabled then (if bit v 63 then x else { x with cfg := w })
        else if !bit v 63 then { x with cfg := w, error := false }
        else if ok then { x with cfg := w, error := false, sqHead := 0, cqTail := 0, phase := true }
        else { x with cfg := setFld w 63 63 0, error := true }))

end Sys2Proof.Machine
end

