-- ==== Sys2Proof/Machine/HostRegs.lean ====
section
/-! DEFINITION. Register writes, BAR4, and what happens to a Host hem's link and functions (R14, R504, R532 to R540, R549, R560, R563, R589, R661). -/

namespace Sys2Proof.Machine
open Sys2Proof

/-- A word with its low k bits zero: an address register aligned to 2^k bytes. -/
def alignDown (k : Nat) (v : U64) : U64 := BitVec.ofNat 64 (v.toNat / 2 ^ k * 2 ^ k)
/-- The partition that a function's indexed output registers name (R538); a VF has index 0 alone. -/
def outIndex (f i : Nat) : Option Nat := if f = 0 then (if i < 16 then some i else none) else if i = 0 then some (f - 1) else none
/-- A write through PF0 to the output registers of a partition whose VF is enabled is ignored (R539). -/
def outOwned (s : State) (f p : Nat) : Bool := f != 0 || !(s.fn (vfOf p)).enabled

/-- OUT_CFG as it is stored: a SIZE_LOG2 outside 16 to 40 leaves ENABLE clear (R539). -/
def outCfgWord (v : U64) : U64 :=
  let k := fld v 5 0
  mkWord 64 [(63, if 16 ≤ k ∧ k ≤ 40 then fld v 63 63 else 0), (0, k)]

/-- A BAR2 register without behaviour of its own written (R538, R539); every other offset is unchanged. -/
def writeBar2 (s : State) (f off : Nat) (v : U64) : State :=
  if !fnLive s f then s
  else if off = 0x0010 then s.updFn f (fun x => { x with statusMirror := alignDown 6 v })
  else if 0x0200 ≤ off ∧ off < 0x0400 then
    match outIndex f ((off - 0x0200) / 0x20) with
    | none => s
    | some p =>
      if !outOwned s f p then s
      else
        match off % 0x20 with
        | 0x00 => s.updFn f (fun x => { x with outBase := Table.put x.outBase p (alignDown 12 v) })
        | 0x08 => s.updFn f (fun x => { x with outCfg := Table.put x.outCfg p (outCfgWord v) })
        | _ => s
  else if 0x1000 ≤ off ∧ off < 0x1000 + 0x40 * ringCount f then
    let r := (off - 0x1000) / 0x40
    match off % 0x40 with
    | 0x00 => s.updRing f r (fun x => { x with sqBase := alignDown 12 v })
    | 0x08 => s.updRing f r (fun x => { x with cqBase := alignDown 12 v })
    | _ => s
  else if 0x2000 ≤ off ∧ off < 0x2080 ∧ (f = 0 ∨ off = 0x2000) then
    s.updFn f (fun x => { x with apertures := Table.put x.apertures ((off - 0x2000) / 8) (alignDown (if f = 0 then 32 else 21) v) })
  else s

/-- The mailbox: bytes of the request buffer, and OVERRUN of MBX_STATUS cleared by a 1 (R504). -/
def writeBar0 (s : State) (f off : Nat) (v : U64) : State :=
  if !fnLive s f then s
  else if off + 8 ≤ 0x0410 then s.updFn f (fun x => { x with mbxReq := x.mbxReq.write off (leBytes 8 v.toNat) })
  else if off = 0x1008 then s.updFn f (fun x => { x with mbxStatus := if bit v 61 then setFld x.mbxStatus 61 61 0 else x.mbxStatus })
  else s

/-- REGISTER_WRITE (R14, R110, R151, R208, R258, R316, R504, R538): writable fields take the value; reserved and read-only ones do not. -/
def execRegisterWrite (t : RegTarget) (v : U64) (s : State) : Res :=
  match t with
  | .bar2 f off => if f ≤ 16 ∧ off % 8 = 0 ∧ off < 0x10000 then .next (writeBar2 s f off v) else .fault .noSuchUnit
  | .bar0 f off => if f ≤ 16 ∧ off % 8 = 0 ∧ off < 0x10000 then .next (writeBar0 s f off v) else .fault .noSuchUnit
  | .node n off =>
    if nodeExists n ∧ off % 8 = 0 ∧ off < 0x100000 then
      .next (if (nodeReg s n off).isSome then s.updNode n (fun d => writeNodeReg d n off v) else s)
    else .fault .noSuchUnit

/-- OUT_READ_WRITE (R539, R549): a value above the watermark is taken as the watermark. -/
def execOutReadWrite (f p : Nat) (v : U64) (s : State) : Res :=
  match outIndex f p with
  | none => .fault .noSuchUnit
  | some q =>
    if 16 < f then .fault .noSuchUnit
    else .next (if !fnLive s f || !outOwned s f q then s else s.updFn f (fun x => { x with outRead := Table.put x.outRead q (min v.toNat (s.io.mark q)) }))

/-- The cluster's class opens a node's scratchpad and slots to the host: D1, of an owner that is not protected (R589, log 47). -/
def padsOpen (s : State) (n : NodeId) : Bool := decide (1 ≤ Table.get 0 s.sec.debugCls (clusterOf n))

/-- Module physical bytes as the host's window reads them, within one 4 KiB granule (R264, R540): zeros where nothing answers. -/
def hostReadPiece (s : State) (a n : Nat) : State × List Byte :=
  let zero := (s, List.replicate n (0 : Byte))
  let serve (at' : Place) : State × List Byte :=
    let r := serveRead s at' a n none true
    if r.status = 0 then (r.s, r.data) else (r.s, List.replicate n 0)
  match regionOf a with
  | .lining l _ => serve (.node (lNode l))
  | .bolt p _ =>
    match boltOwner s (a - 0x20000000000) with
    | some (q, pa, e) => if (s.cfg q).prot then serve (.hem (boltHem p).1) else serve (.node (lNode (boltServer s q pa (pttCache e))))
    | none => serve (.hem (boltHem p).1)
  | .window k off =>
    match windowPart k off n with
    | .regs _ => serve (.node k)
    | .none => zero
    | _ => if padsOpen s k then serve (.node k) else zero
  | .hem h _ => serve (.hem h)
  | .none => zero
/-- Partition addresses as a VF's window reads them (R540). -/
def vfReadPiece (s : State) (p pa n : Nat) : State × List Byte :=
  match xlate s p pa false with
  | .unmapped => (s, List.replicate n 0)
  | .lining a _ => hostReadPiece s a n
  | .bolt o _ _ => hostReadPiece s (0x20000000000 + o) n

/-- BAR4_READ (R540): what comes back is kept as HostIo.readBack. -/
def execBar4Read (f off len : Nat) (s : State) : Res :=
  if 16 < f ∨ (if f = 0 then 0x1000000000 else 0x100000000) < off + len then .fault .noSuchUnit
  else
    .next (
      if !fnLive s f then s
      else
        let base (o : Nat) : Nat := (Table.get 0 (s.fn f).apertures (if f = 0 then o / 0x100000000 else 0)).toNat + o % 0x100000000
        let r := (pieces off len).foldl (fun (r : State × List Byte) x =>
          let q := if f = 0 then hostReadPiece r.1 (base x.1) x.2 else vfReadPiece r.1 (f - 1) (base x.1) x.2
          (q.1, r.2 ++ q.2)) (s, [])
        r.1.updIo (fun x => { x with readBack := r.2 }))

/-- Module physical bytes written by the host's window, within one 4 KiB granule (R540). None: the write is discarded. -/
def hostWritePiece (s : State) (a : Nat) (bs : List Byte) : Option State :=
  let serve (at' : Place) : Option State := let r := serveWrite s at' a bs; if r.2 = 0 then some r.1 else none
  match regionOf a with
  | .lining l _ => if (s.cfg (lnPart s l)).prot && (s.cfg (lnPart s l)).clusters.getLsbD (clusterOf (lNode l)) then none else serve (.node (lNode l))
  | .bolt p _ =>
    match boltOwner s (a - 0x20000000000) with
    | some (q, pa, e) => if (s.cfg q).prot then none else serve (.node (lNode (boltServer s q pa (pttCache e))))
    | none => serve (.hem (boltHem p).1)
  | .window k off =>
    match windowPart k off bs.length with
    | .pad a => if padsOpen s k && !protBanks (s.node k) a bs.length then serve (.node k) else none
    | _ => none
  | _ => none
/-- Partition addresses written by a VF's window (R540). -/
def vfWritePiece (s : State) (p pa : Nat) (bs : List Byte) : Option State :=
  if (s.cfg p).prot then none
  else match xlate s p pa true with
    | .unmapped => none
    | .lining a _ => hostWritePiece s a bs
    | .bolt o _ _ => hostWritePiece s (0x20000000000 + o) bs

/-- BAR4_WRITE (R540): a discarded write counts in BAR4_DISCARDS. -/
def execBar4Write (f off : Nat) (data : List Byte) (s : State) : Res :=
  if 16 < f ∨ (if f = 0 then 0x1000000000 else 0x100000000) < off + data.length then .fault .noSuchUnit
  else
    .next (
      if !fnLive s f then s
      else
        let base (o : Nat) : Nat := (Table.get 0 (s.fn f).apertures (if f = 0 then o / 0x100000000 else 0)).toNat + o % 0x100000000
        let r := (pieces off data.length).foldl (fun (r : State × List Byte × Bool) x =>
          let bs := r.2.1.take x.2
          match (if f = 0 then hostWritePiece r.1 (base x.1) bs else vfWritePiece r.1 (f - 1) (base x.1) bs) with
          | some s => (s, r.2.1.drop x.2, r.2.2)
          | none => (r.1, r.2.1.drop x.2, true)) (s, data, false)
        if r.2.2 then r.1.updHem (fun h => { h with bar4Discards := satAdd h.bar4Discards 1 }) else r.1)

/-- ROLE of both hems (R539): the serving one is active; the other is standby while its link is up. -/
def setRoles (s : State) : State :=
  let role (active : Bool) (h : HostHem) : Nat := if h.dead || !s.pow.on then 0 else if active then 1 else if h.linkUp then 2 else 0
  { s with hemA := { s.hemA with role := role (!s.stw.hostB) s.hemA }, hemB := { s.hemB with role := role s.stw.hostB s.hemB } }

/-- TAKEOVER (R538, R560): only 0x5441_4B45, at the standby's PF0, makes the module fail over. -/
def execTakeover (v : U64) (s : State) : Res := .next (if v = 0x54414B45 then failover s else s)

/-- PCIE_L0_LOSS_TIMEOUT (R560): the active link has been out of L0 for 10 ms. -/
def execPcieL0LossTimeout (s : State) : Res := .next (if s.hem.linkUp then s else failover s)

/-- A function's rings disabled, its fetched entries abandoned and its output configuration cleared (R536). -/
def resetFn (s : State) (f : Nat) : State :=
  let s := s.updFn f (fun x => { x with
    rings := Table.mapVals (fun _ y => { y with cfg := setFld (Ring.cfg y) 63 63 0, waiting := [], started := [], comps := [] }) x.rings
    outBase := [], outCfg := [], outRead := [] })
  s.updIo (fun x => { x with copies := x.copies.filter (fun j => j.f != f), knots := x.knots.filter (fun k => k.2.1 != f) })
/-- FUNCTION_LEVEL_RESET_VF (R536). -/
def execFunctionLevelResetVf (f : Nat) (s : State) : Res := if f = 0 ∨ 16 < f then .fault .noSuchUnit else .next (resetFn s f)
/-- FUNCTION_LEVEL_RESET_PF0 (R536): PF0 and every VF. -/
def execFunctionLevelResetPf0 (s : State) : Res := .next ((List.range 17).foldl resetFn s)

/-- A Host hem by its position (R263). -/
def updHost (s : State) (hem : Nat) (f : HostHem → HostHem) : State := if hem = 3 then { s with hemA := f s.hemA } else { s with hemB := f s.hemB }
def hostAt (s : State) (hem : Nat) : HostHem := if hem = 3 then s.hemA else s.hemB
def isHostHem (hem : Nat) : Bool := hem == 3 || hem == 10

/-- PERST_N (R661): asserted, it holds this hem's link out of L0. -/
def execPerstN (hem : Nat) (asserted : Bool) (s : State) : Res :=
  if !isHostHem hem then .fault .noSuchUnit
  else .next (setRoles (updHost s hem (fun h => { h with perst := asserted, linkUp := h.linkUp && !asserted })))

/-- PCIE_LINK_UP (R531, R532): the link comes into L0 at a width and rate; nothing else changes with them. -/
def execPcieLinkUp (hem width rate : Nat) (s : State) : Res :=
  if !isHostHem hem || !([1, 2, 4, 8, 16].contains width) then .fault .noSuchUnit
  else .next (if (hostAt s hem).perst || (hostAt s hem).dead then s else setRoles (updHost s hem (fun h => { h with linkUp := true, width := width, rate := rate })))

/-- VF_ENABLE (R533, R539): the partition's output registers pass to its VF, or back to PF0. -/
def execVfEnable (f : Nat) (enable : Bool) (s : State) : Res :=
  if f = 0 ∨ 16 < f then .fault .noSuchUnit else .next (s.updFn f (fun x => { x with enabled := enable }))

/-- IDE_STREAM_ESTABLISHED (R535, R563): a VF held after failover fetches again. -/
def execIdeStreamEstablished (f : Nat) (s : State) : Res :=
  if 16 < f then .fault .noSuchUnit else .next (s.updFn f (fun x => { x with ide := true, ideWait := false }))

/-- MBX_DOORBELL (R504, R525): the request buffer is submitted; with one still pending the doorbell only sets OVERRUN; with the queue of 64 full
the answer is BUSY, four of its entries being kept for ATTEST (R583). -/
def execMbxDoorbell (f : Nat) (s : State) : Res :=
  if 16 < f then .fault .noSuchUnit
  else
    .next (
      let x := s.fn f
      if !fnLive s f then s
      else if bit x.mbxStatus 62 then s.updFn f (fun x => { x with mbxStatus := setFld x.mbxStatus 61 61 1 })
      else
        let s := s.updFn f (fun x => { x with mbxStatus := setFld (setFld x.mbxStatus 63 63 0) 62 62 1 })
        let q : Memory := x.mbxReq
        if (if q.num 1 1 = 5 ∧ q.num 8 2 = 0x7000 then 64 else 60) ≤ s.stw.d.queue.length then
          let seq := q.num 4 4
          deliver (s.updDict (fun d => { d with busy := satAdd d.busy 1 })) (.function f) seq
            (respHead (q.num 1 1) 3 seq (q.num 8 2) (q.num 10 1) 4 ++ leBytes 4 0x04000002)
        else s.updDict (fun d => { d with queue := d.queue ++ [f] }))

end Sys2Proof.Machine
end

