-- ==== Sys2Proof/Machine/Objects.lean ====
section
/-! DEFINITION. The objects of the dictionary: their tables, what a READ of each returns, and who may use them (R438, R463, R495, R506 to R509,
R526 to R530, R599, R627, R628, R657). -/

namespace Sys2Proof.Machine
open Sys2Proof

/-- Access codes (R507); no object is W1C. -/
inductive Rights where
  | ro | rw | wo | rws | pp
  deriving DecidableEq, Repr

/-- A row of an object table: subindices, access, bytes of a value (none where they vary), whether it is a DOMAIN, and the module states it is
writable in (R506 to R509). -/
structure Obj where
  index : Nat
  lo : Nat
  hi : Nat
  access : Rights
  size : Option Nat
  domain : Bool
  states : List ModuleState
  deriving DecidableEq, Repr

/-- "In service" (R527), with SERVICE, and the states of other tables. -/
def inService : List ModuleState := [.ready, .running, .degraded]
def inWork : List ModuleState := inService ++ [.service]
/-- Rows of one, of 16 partitions and of 42 panels. -/
def ob (i : Nat) (a : Rights) (n : Nat) (st : List ModuleState) : Obj := ⟨i, 0, 0, a, some n, false, st⟩
def obP (i : Nat) (a : Rights) (n : Nat) (st : List ModuleState) : Obj := ⟨i, 1, 16, a, some n, false, st⟩
def obN (i : Nat) (a : Rights) (n : Nat) (st : List ModuleState) : Obj := ⟨i, 1, 42, a, some n, false, st⟩
def dom (i : Nat) (a : Rights) (st : List ModuleState) : Obj := ⟨i, 0, 0, a, none, true, st⟩
def domP (i : Nat) (a : Rights) (st : List ModuleState) : Obj := ⟨i, 1, 16, a, none, true, st⟩

/-- R527. -/
def objs1 : List Obj := [
  ob 0x1000 .ro 2 [], ⟨0x1001, 0, 0, .ro, none, false, []⟩, ⟨0x1002, 0, 0, .ro, none, false, []⟩, ob 0x1003 .ro 1 [], ob 0x1004 .ro 4 [],
  ⟨0x1010, 1, 2, .ro, some 1, false, []⟩, ⟨0x1011, 1, 2, .ro, some 6, false, []⟩, ob 0x1020 .rw 4 (inWork ++ [.safe]), ob 0x1021 .ro 1 [],
  ob 0x1022 .ro 1 [], ob 0x2000 .ro 1 [], ob 0x2001 .wo 1 (inWork ++ [.safe]), ob 0x2002 .ro 4 [], ob 0x2003 .ro 8 [], ob 0x2004 .ro 4 [],
  ob 0x2005 .ro 4 [], ob 0x2010 .ro 16 []]
/-- R528. -/
def objs2 : List Obj := [
  obP 0x3000 .rws 21 inService, obP 0x3001 .rws 1 inService, obP 0x3002 .ro 1 [], obP 0x3003 .ro 1 [], obP 0x3004 .wo 1 inService,
  obP 0x3005 .ro 48 [], obP 0x3006 .ro 4 [], domP 0x3010 .wo inService, domP 0x3011 .rws inService, obP 0x3012 .rws 2 inService,
  obP 0x3013 .rws 1 inService, obP 0x3014 .rw 8 inService, obP 0x3020 .ro 24 [], domP 0x3021 .ro [], obP 0x3030 .rws 1 inService,
  obP 0x4000 .rws 2 inService, domP 0x4001 .ro [], domP 0x4002 .rws inService, ob 0x4010 .wo 32 inService, ob 0x4011 .wo 4 inService,
  ob 0x4012 .wo 8 inService]
/-- R438. RETEST_NODE is also accepted in SAFE (R490). -/
def objs3 : List Obj := [
  ob 0x5000 .ro 4 [], dom 0x5001 .ro [], ob 0x5002 .ro 4 [], dom 0x5010 .ro [], ob 0x5011 .ro 4 [], obP 0x5020 .rws 1 inService,
  obP 0x5021 .rws 2 inService, obP 0x5022 .rws 1 inService, obP 0x5023 .rws 4 inService, obP 0x5030 .ro 4 [], obP 0x5031 .ro 4 [],
  obP 0x5032 .ro 2 [], obP 0x5033 .ro 4 [], ob 0x5040 .wo 4 inWork, ob 0x5041 .wo 4 (inWork ++ [.safe]), ob 0x5050 .rw 4 inService,
  obN 0x5051 .ro 4 [], obN 0x5052 .ro 4 []]
/-- R463 and R495. -/
def objs4 : List Obj := [
  obP 0x5060 .rws 4 inService, obP 0x5061 .rws 4 inService, dom 0x5062 .ro [], domP 0x5063 .ro [], obP 0x5064 .ro 4 [], ob 0x5070 .wo 4 inWork,
  ob 0x5071 .wo 1 [.ready, .degraded, .service], ob 0x5072 .wo 1 inWork, ob 0x5073 .wo 4 (inWork ++ [.safe]),
  ob 0x5080 .rw 1 (inWork ++ [.test, .fitting, .safe]), ob 0x5081 .ro 1 [], ob 0x5082 .ro 1 [], dom 0x5083 .ro [], ob 0x5084 .ro 4 [],
  ob 0x5085 .pp 1 [.test, .fitting, .ready, .degraded, .safe, .service], ob 0x5086 .ro 1 [], ob 0x5087 .ro 1 [], ob 0x5088 .ro 4 []]
/-- Every state that is reported (R514). -/
def everyState : List ModuleState := [.test, .fitting, .ready, .running, .degraded, .safe, .service, .updating]
/-- R530 and R599. FW_UPDATE and FW_ACTIVATE are also accepted in SAFE (R490). -/
def objs5 : List Obj := [
  dom 0x6000 .ro [], ob 0x6001 .ro 1 [], ob 0x6002 .rw 4 inWork, ob 0x6010 .wo 1 inWork, dom 0x7000 .wo everyState, dom 0x7001 .ro [],
  obP 0x7002 .ro 48 [], domP 0x7010 .ro [], domP 0x7011 .wo inService, obP 0x7012 .wo 1 inService, obP 0x7013 .ro 8 [],
  obP 0x7014 .rws 2 inService, ⟨0x7020, 1, 168, .pp, some 1, false, inWork⟩, dom 0x7030 .wo everyState, dom 0x7040 .wo (inService ++ [.safe]),
  ob 0x7041 .wo 1 (inService ++ [.safe]), ob 0x7042 .pp 1 inService, ob 0x7043 .pp 1 inWork, ob 0x7044 .ro 4 [], ob 0x7045 .ro 1 []]
/-- R530 and R627. -/
def objs6 : List Obj := [
  ⟨0x8000, 1, 4, .rw, some 2, false, inService⟩, dom 0x8010 .pp inService, ob 0x8011 .ro 1 [], ob 0x8012 .wo 1 inService, ob 0x8013 .rw 16 inService,
  ob 0x8014 .rw 4 inService, ob 0x8015 .ro 4 [], ob 0x8016 .ro 28 [], obP 0x8020 .rws 1 inService, obP 0x8021 .rws 1 inService,
  obP 0x8022 .rws 1 inService, obP 0x8023 .rws 1 inService, obP 0x8024 .ro 4 [], ob 0x8030 .rws 1 [.ready, .service],
  ob 0x8031 .rw 2 [.ready, .service], dom 0x8032 .rws inWork, ⟨0x8040, 1, 48, .ro, some 8, false, []⟩]
/-- R530 and R657. -/
def objs7 : List Obj := [
  ob 0x9000 .wo 4 [.service], ob 0x9001 .ro 16 [], ob 0xA000 .rw 4 inWork, ob 0xA001 .ro 4 [], ob 0xA002 .ro 1 [], dom 0xA003 .ro [],
  ob 0xA004 .ro 4 [], obN 0xA010 .ro 1 [], obN 0xA011 .rw 1 inWork, obN 0xA012 .ro 1 [], obN 0xA013 .ro 4 [], obN 0xA014 .ro 4 [],
  obN 0xA015 .ro 4 [], obN 0xA016 .ro 1 [], ob 0xA020 .ro 8 [], ob 0xA030 .ro 8 [], dom 0xA031 .ro []]
/-- Every object. -/
def objTable : List Obj := objs1 ++ objs2 ++ objs3 ++ objs4 ++ objs5 ++ objs6 ++ objs7

/-- The object of an index and subindex (R507). -/
def objAt (index sub : Nat) : Option Obj := objTable.find? (fun o => o.index == index && decide (o.lo ≤ sub) && decide (sub ≤ o.hi))

/-- What a requester may do (R508, R583): PF0 and the segments everything; a VF its own partition's subindices, its bobbins, and some reads. -/
def permitted (who : Requester) (o : Obj) (sub : Nat) (write : Bool) : Bool :=
  match who with
  | .segment .. | .function 0 => true
  | .function f =>
    let own := o.lo == 1 && o.hi == 16 && sub == f
    let part := own && (decide (0x3000 ≤ o.index ∧ o.index ≤ 0x4FFF) || decide (0x6000 ≤ o.index ∧ o.index ≤ 0x6FFF))
    part || [0x4010, 0x4011, 0x4012, 0x7000].contains o.index ||
      (if write then own && (o.index == 0x7011 || o.index == 0x7012)
       else decide (0x1000 ≤ o.index ∧ o.index ≤ 0x1FFF) || o.index == 0x2000 || o.index == 0x7001 || o.index == 0x7010 ||
        (own && [0x7002, 0x7013, 0x7014].contains o.index))

/-- Physical presence (R523). -/
def presence (s : State) : Bool := s.stw.d.jumper || decide (s.clock < s.stw.d.tackUntil)
/-- The selvage latch (R597): SEAL_BREAKS exceeds RESEALS, or both read 32, as the acting steward's hem has them. -/
def sealHem (s : State) : HostHem := if s.stw.standbyActs || s.stw.stewardLost then s.hemB else s.hemA
def sealLatched (s : State) : Bool :=
  decide ((sealHem s).reseals < (sealHem s).sealBreaks) || (decide ((sealHem s).sealBreaks = 32) && decide ((sealHem s).reseals = 32))

/-- Connectors that are live (R631). -/
def liveCount (s : State) : Nat := s.pow.live.countP (fun x => x)
/-- The connector limit (R631): with fewer than two the module powers down. -/
def connectorLimit (s : State) : Nat := match liveCount s with | 4 => gradeEnvelope s.brg.grade | 3 => 18000 | 2 => 12000 | _ => 0
/-- The coolant limit (R656): 1 kW per °C of inlet above 35 °C off the envelope, no lower than 12 kW. A part of a degree counts in part. -/
def coolantLimit (s : State) : Nat :=
  let e := gradeEnvelope s.brg.grade
  if s.pow.inlet ≤ 3500 then e else min e (max 12000 (e - (10 * (s.pow.inlet - 3500)).toNat))
/-- The effective limit (R632). -/
def limitActive (s : State) : Nat :=
  let e := gradeEnvelope s.brg.grade
  min (min (s.pow.limit.getD e) e) (min (connectorLimit s) (coolantLimit s))

/-- Part numbers by grade (R3). -/
def partNumber (g : Nat) : String :=
  match g with | 1 => "AFB-W2000-18" | 2 => "AFB-W1800-18" | 3 => "AFB-W1600-12" | _ => "AFB-W2000-25"
/-- Bytes of an ASCII text. -/
def asciiBytes (t : String) : List Byte := t.toList.map (fun c => BitVec.ofNat 8 c.toNat)
/-- SERIAL in its external form: 16 decimal digits (R566). -/
def serialText : List Byte := (List.range 16).map (fun i => BitVec.ofNat 8 (0x30 + Config.serial / 10 ^ (15 - i) % 10))
/-- T1S_MAC of a hem: derived from the identity fuses in a way the spec leaves open (log 6), the locally administered bit set (R497). -/
def t1sMac (i : Nat) : List Byte := leBytes 6 (setFld (BitVec.ofNat 48 (Config.mac i)) 1 1 1).toNat

/-- A fault map entry (R412). -/
def mapWord (n : NodeId) (e : MapEntry) : U64 :=
  if !nodeExists n then 0xFCAA000000000000
  else
    let link (p : Nat) : Nat := if portLeads n p then Table.get 0 e.links p else 2
    mkWord 64 [(60, e.state), (58, e.router), (54, link 3), (52, link 2), (50, link 1), (48, link 0), (40, e.code), (32, e.repairs),
      (16, e.faults), (0, e.genLow)]
/-- A fault log record (R436). -/
def eventBytes (e : FaultEvent) : List Byte :=
  leBytes 4 e.gen ++ leBytes 4 e.step ++ leBytes 1 e.kind ++ leBytes 1 e.code ++ leBytes 1 e.x ++ leBytes 1 e.y ++ leBytes 1 e.part ++
  leBytes 1 e.port ++ leBytes 2 e.placement ++ leBytes 8 e.stamp ++ leBytes 1 e.panel ++ List.replicate 7 0
/-- A bring-up report record (R486). -/
def testBytes (t : TestRecord) : List Byte :=
  leBytes 1 t.test ++ leBytes 1 (if t.full then 0 else 1) ++ leBytes 2 t.coverage ++ leBytes 4 t.durationMs ++ leBytes 4 t.tested ++ leBytes 4 t.failed

/-- Two's complement in n bytes. -/
def intBytes (n : Nat) (v : Int) : List Byte := leBytes n (v % (2 ^ (8 * n) : Nat)).toNat

/-- Seconds left in the Tack window (R527 PP_REMAIN). -/
def tackRemain (s : State) : Nat := (s.stw.d.tackUntil - s.clock + msCycles 1000 - 1) / msCycles 1000

/-- PARTITION_STATE: an undefined partition reads EMPTY (R516). -/
def partCode (s : State) (p : Nat) : Nat := if (s.cfg p).defined then (s.part p).state.code else 0

/-- STRIPE_SETS and MEM_POOLS as they are transferred (R528). -/
def stripeBytes (l : List (List Nat)) : List Byte := l.flatMap (fun m => leBytes 1 m.length ++ m.flatMap (leBytes 1))
def poolBytes (l : List (Nat × U64 × U64)) : List Byte := l.flatMap (fun x => leBytes 1 x.1 ++ leBytes 8 x.2.1.toNat ++ leBytes 8 x.2.2.toNat)
/-- RELAY_TABLE (R608, R627). -/
def relayBytes (t : Table Nat) : List Byte := (List.range 4096).map (fun i => BitVec.ofNat 8 (Table.get 0xFF t i))

/-- A staged object of a partition in a configuration set (R528, R438, R463, R599, R530, R627). -/
def cfgBytes (c : PartCfg) (index : Nat) : List Byte :=
  match index with
  | 0x3000 => leBytes 21 c.clusters.toNat
  | 0x3001 => [c.domain]
  | 0x3011 => stripeBytes c.stripes
  | 0x3012 => leBytes 2 c.cacheSet.toNat
  | 0x3013 => [BitVec.ofNat 8 (b2n c.digestAll)]
  | 0x3030 => leBytes 1 c.exchange
  | 0x4000 => leBytes 2 c.knotAlloc
  | 0x4002 => poolBytes c.pools
  | 0x5020 => leBytes 1 c.faultModel
  | 0x5021 => leBytes 2 c.sampleInterval
  | 0x5022 => [BitVec.ofNat 8 (b2n c.pressure)]
  | 0x5023 => leBytes 4 c.pressureHold
  | 0x5060 => leBytes 4 c.hangWindow
  | 0x5061 => leBytes 4 c.ctxWindow
  | 0x7014 => leBytes 2 c.walkShare
  | 0x8020 => [BitVec.ofNat 8 (b2n c.mirror)]
  | 0x8021 => leBytes 1 c.mirrorPeer
  | 0x8022 => leBytes 1 c.onTwinLoss
  | 0x8023 => [BitVec.ofNat 8 (b2n c.shadow)]
  | _ => []

/-- Identity, module state and staging (R527). -/
def readModule (s : State) (index sub : Nat) : List Byte :=
  let d := s.stw.d
  match index with
  | 0x1000 => leBytes 2 0x0001
  | 0x1001 => asciiBytes (partNumber s.brg.grade)
  | 0x1002 => serialText
  | 0x1003 => [0xB0]
  | 0x1004 => leBytes 4 s.sec.fwVersion
  | 0x1010 => leBytes 1 (1 + Config.slot sub % 32)
  | 0x1011 => t1sMac sub
  | 0x1020 => leBytes 4 d.stageTimeout
  | 0x1021 => leBytes 1 (b2n (decide (s.clock < d.tackUntil)) + 2 * b2n d.jumper + 4 * b2n (sealLatched s))
  | 0x1022 => leBytes 1 (tackRemain s)
  | 0x2000 => leBytes 1 s.stw.mstate.code
  | 0x2002 => leBytes 4 d.gen
  | 0x2003 => leBytes 8 d.commitStatus
  | 0x2004 => leBytes 4 d.ownerCode
  | 0x2005 => leBytes 4 d.stageDiscards.toNat
  | _ => []

/-- A page that the walker has to carry to the target epoch (R576): a bobbin page in its frame, a general Lining page, or a 4 KiB unit of the
partition's Bolt. -/
inductive WalkPage where
  | frame (l e i : Nat)
  | general (page : Nat)
  | bolt (unit : Nat)
  deriving DecidableEq, Repr
/-- The 2 KiB counter block of a mapped Bolt page says that a 4 KiB unit of it has been written, and its metadata under which epoch (R280, R286). -/
def unitStale (s : State) (e : U64) (k target : Nat) : Bool :=
  let o := pttBpage e * 0x200000 + 4096 * k
  vctrGet s (pttVctr e) o != 0 && (Table.get 0 s.boltMeta (o / 64)).toNat / 16 % 16 != target % 16
/-- Pages of a partition that are not at the walk's target epoch (R576, R578). -/
def walkPages (s : State) (p : Nat) : List WalkPage :=
  let x := s.part p
  let t := x.keys.walkTarget
  let frames := ((s.cfg p).lnodes).flatMap (fun l => (s.ln l).bobbins.flatMap (fun (eb : Nat × Bobbin) =>
    if eb.2.state = 0 ∨ eb.2.state = 3 ∨ eb.2.part ≠ p then []
    else ((List.range eb.2.listCap).filter (fun i => let y := ple s l eb.2 i; pleValid y && pleLin y && pleEpoch y != t)).map (WalkPage.frame l eb.1)))
  let general := (x.pl.ptt.filter (fun e => pttValid e.2 && !pttBolt e.2 && pttEpoch e.2 != t)).map (fun e => WalkPage.general e.1)
  let bolt := x.pl.ptt.flatMap (fun e =>
    if pttValid e.2 && pttBolt e.2 then
      ((List.range 512).filter (fun k => unitStale s e.2 k t)).map (fun k => WalkPage.bolt ((e.1 - 0x100000) * 512 + k))
    else [])
  if x.keys.walking then frames ++ general ++ bolt else []

/-- Partitions (R528). -/
def readPartition (s : State) (index p : Nat) : List Byte :=
  let x := s.part p
  match index with
  | 0x3002 => leBytes 1 (partCode s p)
  | 0x3003 => leBytes 1 x.reason
  | 0x3005 => x.pl.digest
  | 0x3006 => leBytes 4 x.committed.toNat
  | 0x3014 => leBytes 8 x.tenantSeed.toNat
  | 0x3020 => [x.rep.timingSteps, x.rep.firstTiming, x.rep.silentChecked, x.rep.silentSkipped, x.rep.silentPrimary, x.rep.silentTwin].flatMap (fun v => leBytes 4 v.toNat)
  | 0x3021 => x.rep.history.flatMap (fun h => leBytes 4 h.1 ++ leBytes 4 h.2.1 ++ leBytes 1 h.2.2 ++ [0, 0, 0])
  | 0x4001 => x.pl.knots.flatMap (leBytes 2)
  | 0x5030 => leBytes 4 x.pl.resumes.toNat
  | 0x5031 => leBytes 4 x.pl.lastResumeUs.toNat
  | 0x5032 => leBytes 2 x.pl.placement
  | 0x5033 => leBytes 4 x.tr.unresolved.toNat
  | 0x5063 => x.tr.sample
  | 0x5064 => leBytes 4 x.tr.idleDeclared.toNat
  | 0x7002 => leBytes 1 (b2n x.keys.installed) ++ leBytes 2 x.keys.epoch ++ leBytes 4 x.keys.starts ++ x.keys.kcv ++ x.keys.deliveryId ++ [0]
  | 0x7010 => x.keys.kexPublic
  | 0x7013 => leBytes 8 (mkWord 64 [(63, b2n x.keys.walking), (32, x.keys.walkTarget), (0, (walkPages s p).length)] : U64).toNat
  | 0x8024 => leBytes 4 x.mir.committed.toNat
  | _ => []

/-- Faults, hangs and bring-up (R438, R463, R495). -/
def readFaults (s : State) (index sub : Nat) : List Byte :=
  let f := s.stw.f
  let b := s.brg
  match index with
  | 0x5000 => leBytes 4 f.gen
  | 0x5001 => (List.range 3072).flatMap (fun n => leBytes 8 (mapWord n (s.entry n)).toNat)
  | 0x5002 => leBytes 4 f.stored
  | 0x5010 => f.log.flatMap eventBytes
  | 0x5011 => leBytes 4 f.seq.toNat
  | 0x5050 => leBytes 4 s.stw.patrolPeriod
  | 0x5051 => leBytes 4 (s.panel (sub - 1)).patrolFails.toNat
  | 0x5052 => leBytes 4 (s.panel (sub - 1)).patrolDeferred.toNat
  | 0x5062 => f.hangLog.flatten
  | 0x5080 => leBytes 1 b.mode
  | 0x5081 => leBytes 1 (b2n (!b.full) + 2 * b.reason + 16 * b2n b.mismatch)
  | 0x5082 => leBytes 1 b.phase
  | 0x5083 => b.report.flatMap testBytes
  | 0x5084 => leBytes 4 b.timeMs
  | 0x5085 => leBytes 1 (b2n b.accept)
  | 0x5086 => leBytes 1 b.short
  | 0x5087 => leBytes 1 b.fastSince
  | 0x5088 => leBytes 4 b.diff
  | _ => []

/-- Telemetry, security, twin and Spakan (R530, R599, R627). -/
def readTwin (s : State) (index sub : Nat) : List Byte :=
  let t := s.twin
  match index with
  | 0x6000 => (List.range 42).flatMap (fun k => (Table.get [] s.stw.congestion k ++ List.replicate 1296 0).take 1296)
  | 0x6001 => leBytes 1 s.stw.decimation
  | 0x6002 => leBytes 4 s.stw.rtWindow
  | 0x7001 => Config.chain
  | 0x7020 => leBytes 1 (Table.get 0 s.sec.debugCls (sub - 1))
  | 0x7042 => leBytes 1 (b2n s.sec.downgrade)
  | 0x7043 => leBytes 1 (b2n s.sec.arbHold)
  | 0x7044 => leBytes 4 s.sec.fwStatus.toNat
  | 0x7045 => leBytes 1 ((sealHem s).sealBreaks % 64 + 64 * b2n s.sec.loopOpen + 128 * b2n (sealLatched s))
  | 0x8000 => leBytes 2 (nth 0 t.domains (sub - 1)).toNat
  | 0x8011 => leBytes 1 (t.state + 128 * b2n t.override)
  | 0x8013 => t.expect
  | 0x8014 => leBytes 4 t.timeout
  | 0x8015 => leBytes 4 t.status
  | 0x8016 => (match t.peer with
      | some h => leBytes 16 h.serial.toNat ++ leBytes 2 h.addr.toNat ++ (List.range 4).flatMap (fun i => leBytes 2 (nth 0 h.domains i).toNat) ++ [0, 0]
      | none => List.replicate 28 0)
  | 0x8031 => leBytes 2 t.addr.toNat
  | 0x8040 => leBytes 8 (spStatus s (sub - 1)).toNat
  | _ => []

/-- Power, clocks and heat (R530, R657). -/
def readPower (s : State) (index sub : Nat) : List Byte :=
  let w := s.pow
  let x := s.panel (sub - 1)
  let bus (a b : Nat) : Nat := b2n (nth false w.live a || nth false w.live b)
  match index with
  | 0x9001 => s.stw.serviceResult
  | 0xA000 => leBytes 4 (w.limit.getD (gradeEnvelope s.brg.grade))
  | 0xA001 => leBytes 4 w.input
  | 0xA002 => leBytes 1 ((List.range 4).foldl (fun a i => a + b2n (nth false w.live i) * 2 ^ i) 0 + 16 * bus 0 1 + 32 * bus 2 3 + 64 * b2n w.alarm + 128 * b2n w.senseFallback)
  | 0xA003 => w.events.flatMap (fun e => leBytes 1 e.code ++ leBytes 1 e.subject ++ List.replicate 6 0 ++ leBytes 8 e.time)
  | 0xA004 => leBytes 4 (limitActive s)
  | 0xA010 => leBytes 1 x.state
  | 0xA011 => leBytes 1 x.request
  | 0xA012 => leBytes 1 (x.core + 16 * (x.fabric / 8))
  | 0xA013 => intBytes 2 x.tempLogic ++ intBytes 2 x.tempDram
  | 0xA014 => leBytes 4 x.power
  | 0xA015 => leBytes 4 x.volt
  | 0xA016 => leBytes 1 x.darkReason
  | 0xA030 => leBytes 8 s.clock
  | 0xA031 => (List.range 42).flatMap (fun k => intBytes 8 (s.panel k).offset)
  | _ => []

/-- The value of an object (R502, R507): the active value, or the shadow value of an RWS object. The shares of STEWARD_LOAD are
time, and the outlet's temperature is the coolant's (log 1). -/
def readObject (s : State) (shadow : Bool) (o : Obj) (sub : Nat) : State × List Byte :=
  let c := if shadow then s.stw.d.shadow else s.stw.d.active
  if o.access = .rws then
    (s, match o.index with
      | 0x8030 => [BitVec.ofNat 8 (b2n c.transit)]
      | 0x8032 => relayBytes c.relay
      | i => cfgBytes (c.part (sub - 1)) i)
  else if o.index = 0x2010 then
    let f := s.takeFree
    (f.2, leBytes 10 (Config.free f.1) ++ leBytes 2 s.stw.d.queue.length ++ leBytes 4 s.stw.d.busy.toNat)
  else if o.index = 0xA020 then
    let f := s.takeFree
    (f.2, intBytes 4 s.pow.inlet ++ leBytes 4 (Config.free f.1))
  else
    (s, if o.lo = 1 ∧ o.hi = 16 then readPartition s o.index (sub - 1)
      else if o.index < 0x5000 then readModule s o.index sub
      else if o.index < 0x6000 then readFaults s o.index sub
      else if o.index < 0x9000 then readTwin s o.index sub
      else readPower s o.index sub)

end Sys2Proof.Machine
end

