-- ==== Sys2Proof/Machine/Dict.lean ====
section
/-! DEFINITION. How the steward serves requests: framing, stored responses, permissions, reads, DOMAIN transfers and the time limits of staging,
transfers and the queue (R465, R496 to R512, R519, R525). -/

namespace Sys2Proof.Machine
open Sys2Proof

/-- What a request comes to: the state after it, an abort code or 0, the payload, MORE, and what an EXECUTE still waits for (R500, R502). -/
structure Ans where
  s : State
  code : Nat
  data : List Byte
  more : Bool
  wait : Option (Nat × List Nat)
  deriving DecidableEq, Repr

def refuse (s : State) (code : Nat) : Ans := ⟨s, code, [], false, none⟩
def doneWith (s : State) (data : List Byte) : Ans := ⟨s, 0, data, false, none⟩
def done (s : State) : Ans := doneWith s []
/-- An action's state and abort code as an answer; a refused one leaves the state it was given (R509), but for the
free values it drew (log 1). -/
def answerOf (s0 : State) (r : State × Nat) (wait : Option (Nat × List Nat)) : Ans :=
  if r.2 = 0 then ⟨r.1, 0, [], false, wait⟩ else refuse { s0 with free := r.1.free } r.2

/-- A requester that can exist (R496, R503). -/
def whoOk (who : Requester) : Bool := match who with | .segment hem _ _ => isHostHem hem | .function f => decide (f ≤ 16)
/-- The steward answers this requester: powered, past phase 4, a steward acting, the path there (R465, R496, R533). -/
def serves (s : State) (who : Requester) : Bool :=
  s.pow.on && s.stw.mstate != .off && stewardActs s &&
    (match who with | .segment hem _ _ => !(hostAt s hem).dead | .function f => !s.hem.dead && fnLive s f)

/-- One request served (R500 to R503): from the store if it has been answered, not again while its action is under way, else executed. A change is
journalled before its answer (R434). -/
def serveReq (s : State) (who : Requester) (seq op index sub : Nat) (f : State → Ans) : State :=
  match s.stw.d.store.find? (fun e => e.1 == who && e.2.1 == seq) with
  | some e => deliver s who seq e.2.2
  | none =>
    if s.stw.d.awaiting.any (fun a => a.who == who && a.seq == seq) then s
    else
      let a := f s
      if a.code ≠ 0 then respond a.s who seq (respHead op 3 seq index sub 4 ++ leBytes 4 a.code)
      else
        let s := if op = 1 then a.s else a.s.journalled
        match (if op = 5 then a.wait else none) with
        | some w => s.updDict (fun d => { d with awaiting := d.awaiting ++ [⟨who, seq, index, sub, w.1, w.2⟩] })
        | none => respond s who seq (respHead op (if a.more then 5 else 1) seq index sub a.data.length ++ a.data)

/-- A request is malformed (R500, R501, R505). Bits that only responses carry count as reserved (log 55). -/
def malformed (r : Req) : Bool :=
  let fl := r.flags
  let dma := bit fl 3
  r.version != 1 || decide (r.op.toNat < 1 ∨ 6 < r.op.toNat) || fld fl 15 7 != 0 || fld fl 2 0 != 0 || r.rsv != 0 ||
    decide (1024 < r.length.toNat) || decide (r.payload.length ≠ r.length.toNat) ||
    (dma && (match r.who with | .segment .. => true | .function _ => !([1, 2, 6].contains r.op.toNat))) ||
    (r.op == 4 && (r.index != 0 || r.sub != 0))
/-- A multicast request that is dropped (R499). -/
def dropped (r : Req) : Bool := r.multicast && !(r.op == 1 && decide (0x1000 ≤ r.index.toNat ∧ r.index.toNat ≤ 0x1FFF) && !malformed r)

/-- A datagram of one operation (R500, R501). -/
def onRequest (op : Nat) (r : Req) (s : State) (f : State → Ans) : Res :=
  if !whoOk r.who then .fault .noSuchUnit
  else if r.op.toNat ≠ op ∧ 1 ≤ r.op.toNat ∧ r.op.toNat ≤ 6 then .fault .otherRow
  else
    .next (if r.runt || dropped r || !serves s r.who then s
      else serveReq s r.who r.seq.toNat r.op.toNat r.index.toNat r.sub.toNat (fun s => if malformed r then refuse s 0x02000004 else f s))

/-- Why a WRITE or EXECUTE of an object is refused before its value is looked at, or 0 (R507 to R509, R524). -/
def writeRefused (s : State) (who : Requester) (o : Obj) (sub : Nat) : Nat :=
  if !permitted who o sub true then 0x01000004
  else if o.access = .ro then 0x01000002
  else if o.access = .rws then 0x01000005
  else if !o.states.contains s.stw.mstate then 0x03000001
  else if o.access = .pp ∧ !presence s then 0x05000001
  else 0

/-- A request whose row names its object: WRITE or EXECUTE of a value (R500, R502, R507). -/
def onObject (h : ReqHdr) (index sub : Nat) (s : State) (act : State → Ans) : Res :=
  if !whoOk h.who then .fault .noSuchUnit
  else
    .next (if !serves s h.who then s
      else serveReq s h.who h.seq.toNat (if h.execute then 5 else 2) index sub (fun s =>
        match objAt index sub with
        | none => refuse s 0x01000001
        | some o =>
          match writeRefused s h.who o sub with
          | 0 => let a := act s; if h.execute then a else { a with data := [] }
          | c => refuse s c))

/-- DOMAIN transfers (R510 to R512): the next free XFER, and a transfer opened unless the requester holds eight. -/
def freshXfer (d : Dict) : Nat :=
  (((List.range 1024).map (fun i => (d.nextXfer + i - 1) % 65535 + 1)).find? (fun x => !d.transfers.any (fun t => t.xfer == x))).getD d.nextXfer
def openTransfer (s : State) (who : Requester) (op index sub total : Nat) (data : List Byte) (moved : Nat) : Option (State × Nat) :=
  let d := s.stw.d
  if 8 ≤ (d.transfers.filter (fun t => t.who == who)).length then none
  else
    let x := freshXfer d
    some (s.updDict (fun d => { d with transfers := d.transfers ++ [⟨x, who, op, index, sub, total, data, moved⟩], nextXfer := x % 65535 + 1 }), x)
def closeTransfer (s : State) (x : Nat) : State := s.updDict (fun d => { d with transfers := d.transfers.filter (fun t => t.xfer != x) })
/-- The 8-byte transfer descriptor (R510). -/
def xferDesc (total x : Nat) : List Byte := leBytes 4 total ++ leBytes 2 x ++ [0, 0]

/-- A DMA descriptor (R505): address and length, none where it is not 16 bytes; the length within a limit and 16 MiB. -/
def dmaDesc (p : List Byte) (limit : Nat) : Nat ⊕ (Nat × Nat) :=
  if p.length ≠ 16 then .inl 0x02000004
  else
    let n := leNat ((p.drop 8).take 4)
    if limit < n ∨ 0x1000000 < n then .inl 0x02000001 else .inr (leNat (p.take 8), n)

/-- A DOMAIN value answered (R505, R510): a snapshot, its first bytes, and a transfer for the rest. -/
def readDomain (s0 s : State) (who : Requester) (op index sub : Nat) (v : List Byte) (dma : Option (List Byte)) : Ans :=
  let total := v.length
  let go (s : State) (n : Nat) (data : List Byte) : Ans :=
    if total ≤ n then ⟨s, 0, xferDesc total 0 ++ data, false, none⟩
    else match openTransfer s who op index sub total v n with
      | none => refuse s0 0x04000005
      | some (s, x) => ⟨s, 0, xferDesc total x ++ data, true, none⟩
  match dma with
  | none => go s (min 1016 total) (v.take 1016)
  | some p =>
    match dmaDesc p total with
    | .inl c => refuse s0 c
    | .inr (a, n) => go { s with hostMem := s.hostMem.write a (v.take n) } n []

/-- DICT_READ (R496, R499, R502, R505, R507, R508, R510). -/
def execDictRead (r : Req) (s : State) : Res :=
  onRequest 1 r s (fun s =>
    match objAt r.index.toNat r.sub.toNat with
    | none => refuse s 0x01000001
    | some o =>
      if !permitted r.who o r.sub.toNat false then refuse s 0x01000004
      else if o.access = .wo then refuse s 0x01000003
      else if bit r.flags 3 ∧ !o.domain then refuse s 0x02000004
      else
        let v := readObject s (bit r.flags 4) o r.sub.toNat
        if o.domain then readDomain s v.1 r.who 1 r.index.toNat r.sub.toNat v.2 (if bit r.flags 3 then some r.payload else none)
        else doneWith v.1 v.2)

/-- A DOMAIN write opened (R505, R511): its value at once where all of it has come, or by DMA from host memory, whose bytes are open (log 1). -/
def openWrite (s0 : State) (who : Requester) (op index sub : Nat) (payload : List Byte) (dma : Bool) (apply : State → List Byte → Ans) : Ans :=
  if dma then
    match dmaDesc payload 0xFFFFFFFF with
    | .inl c => refuse s0 c
    | .inr (_, n) => let f := s0.takeFree; apply f.2 (leBytes n (Config.free f.1))
  else
    let total := leNat (payload.take 4)
    let first := payload.drop 8
    if payload.length < 8 ∨ leNat ((payload.drop 4).take 2) ≠ 0 then refuse s0 0x02000004
    else if total < first.length then refuse s0 0x02000005
    else if first.length = total then
      let a := apply s0 first
      if a.code = 0 then { a with data := xferDesc total 0 ++ a.data } else a
    else match openTransfer s0 who op index sub total first first.length with
      | none => refuse s0 0x04000005
      | some (s, x) => doneWith s (xferDesc total x)

/-- STAGE_TIMEOUT (R519): the owner has been silent: it loses the stage and the shadow set is the active set again. -/
def execStageTimeout (s : State) : Res :=
  .next (if s.stw.d.owner.isNone then s
    else s.updDict (fun d => { d with owner := none, ownerCode := 0, shadow := d.active, staged := [], stageDiscards := d.stageDiscards + 1 }))

/-- DOMAIN_TRANSFER_TIMEOUT (R512): the transfer closes, and a partial write is discarded. -/
def execDomainTransferTimeout (xfer : Nat) (s : State) : Res := .next (closeTransfer s xfer)

/-- DICT_QUEUE_TIMEOUT (R525): the request that has waited longest is answered BUSY and not executed. -/
def execDictQueueTimeout (s : State) : Res :=
  .next (
    match s.stw.d.queue with
    | [] => s
    | f :: _ =>
      let q : Memory := (s.fn f).mbxReq
      let seq := q.num 4 4
      deliver (s.updDict (fun d => { d with busy := satAdd d.busy 1 })) (.function f) seq
        (respHead (q.num 1 1) 3 seq (q.num 8 2) (q.num 10 1) 4 ++ leBytes 4 0x04000002))

/-- The link-local address of a segment (R498): the modified EUI-64 of the hem's MAC address. -/
def linkLocal (i : Nat) : U128 :=
  let m := t1sMac i
  let id := [(nth 0 m 0) ^^^ 0x02, nth 0 m 1, nth 0 m 2, 0xFF, 0xFE, nth 0 m 3, nth 0 m 4, nth 0 m 5]
  BitVec.ofNat 128 (0xFE80 * 2 ^ 112 + beNat id)
/-- NEIGHBOUR_SOLICITATION (R498): one that asks for the segment's address is answered. -/
def execNeighbourSolicitation (hem : Nat) (target : U128) (s : State) : Res :=
  if !isHostHem hem then .fault .noSuchUnit
  else .next (if serves s (.segment hem 0 0) && target == linkLocal (if hem = 3 then 1 else 2) then s.updDict (fun d => { d with adverts := d.adverts ++ [(hem, target)] }) else s)

/-- A plain RW or PP object written (R438, R495, R524, R527, R530, R596, R599, R606, R613, R627): the state and an abort code. -/
def plainWrite (s : State) (index sub : Nat) (v : List Byte) : State × Nat :=
  let n := leNat v
  let within (lo hi : Nat) (t : State) : State × Nat := if lo ≤ n ∧ n ≤ hi then (t, 0) else (s, 0x02000001)
  match index with
  | 0x1020 => within 1000 3600000 (s.updDict (fun d => { d with stageTimeout := n }))
  | 0x5050 => within 1000 60000 { s with stw := { s.stw with patrolPeriod := n } }
  | 0x5080 => within 0 1 { s with brg := { s.brg with mode := n } }
  | 0x6002 => within 65536 16777216 (allNodes.foldl (fun s r => s.updRouter r (fun x => { x with window := n })) { s with stw := { s.stw with rtWindow := n } })
  | 0x7042 => if n = 1 ∧ sealLatched s then (s, 0x05000002) else within 0 1 { s with sec := { s.sec with downgrade := n == 1 } }
  | 0x7043 => if n = 0 ∧ sealLatched s then (s, 0x05000002) else within 0 1 (advanceArb { s with sec := { s.sec with arbHold := n == 1 } })
  | 0x8000 => ({ s with twin := { s.twin with domains := setNth s.twin.domains (sub - 1) (BitVec.ofNat 16 n) } }, 0)
  | 0x8013 => ({ s with twin := { s.twin with expect := v } }, 0)
  | 0x8014 => within 1000 1000000 { s with twin := { s.twin with timeout := n } }
  | 0x8031 => within 0 0x0FFF { s with twin := { s.twin with addr := BitVec.ofNat 16 n } }
  | _ => (s, 0x01000001)

end Sys2Proof.Machine
end

