-- ==== Sys2Proof/Machine/Funcs.lean ====
section
/-! DEFINITION. The function procedures of R132 and R133: coefficients rounded from high-precision fixed point, reduction, polynomial and
reconstruction. -/

namespace Sys2Proof

/-- Fraction bits of the fixed point in which coefficients are formed before their one rounding to 64 bits. -/
abbrev fxP : Nat := 320
def fxOne : Int := 2 ^ fxP
def fxMul (a b : Int) : Int := (a * b) / 2 ^ fxP
def fxDiv (a b : Int) : Int := (a * 2 ^ fxP) / b
/-- p / q in fixed point. -/
def fxRat (p : Int) (q : Nat) : Int := (p * 2 ^ fxP) / q

/-- Largest r with r² ≤ n, bit by bit from bit b down. -/
def sqrtBits (n : Nat) : Nat → Nat → Nat
  | 0, r => r
  | b + 1, r => let c := r + 2 ^ b; sqrtBits n b (if c * c ≤ n then c else r)

/-- e^x by its series, for 0 ≤ x < 20. -/
def fxExp (x : Int) : Int :=
  ((List.range 180).foldl (fun (st : Int × Int) (i : Nat) => let t := fxMul st.1 x / ((i : Int) + 1); (t, st.2 + t)) (fxOne, fxOne)).2
/-- atanh z for |z| ≤ 1/3. -/
def fxAtanh (z : Int) : Int :=
  let z2 := fxMul z z
  ((List.range 110).foldl (fun (st : Int × Int) (i : Nat) => (fxMul st.1 z2, st.2 + st.1 / (2 * (i : Int) + 1))) (z, 0)).2
/-- atan (1/q) for an integer q ≥ 5. -/
def fxAtanInv (q : Nat) : Int :=
  ((List.range 80).foldl (fun (st : Int × Int) (i : Nat) =>
    (st.1 / ((q * q : Nat) : Int), if i % 2 = 0 then st.2 + st.1 / (2 * (i : Int) + 1) else st.2 - st.1 / (2 * (i : Int) + 1))) (fxRat 1 q, 0)).2
def fxLn2 : Int := 2 * fxAtanh (fxRat 1 3)
/-- π = 16 atan(1/5) − 4 atan(1/239). -/
def fxPi : Int := 16 * fxAtanInv 5 - 4 * fxAtanInv 239
/-- The square root of a fixed-point number. -/
def fxSqrt (x : Int) : Int := (sqrtBits (x.toNat * 2 ^ fxP) 330 0 : Nat)
/-- sin x and cos x by their series, for 0 ≤ x < 2. -/
def fxSinCos (x : Int) : Int × Int :=
  let r := (List.range 110).foldl (fun (st : Int × Int × Int) (i : Nat) =>
    -- st: the term x^i / i!, the sine and the cosine
    let s := if i % 4 = 1 then st.2.1 + st.1 else if i % 4 = 3 then st.2.1 - st.1 else st.2.1
    let c := if i % 4 = 0 then st.2.2 + st.1 else if i % 4 = 2 then st.2.2 - st.1 else st.2.2
    (fxMul st.1 x / ((i : Int) + 1), s, c)) (fxOne, 0, 0)
  r.2
/-- erf x by its series, for 0 ≤ x ≤ 4. -/
def fxErf (x : Int) : Int :=
  let x2 := fxMul x x
  let s := ((List.range 160).foldl (fun (st : Int × Int) (i : Nat) =>
    (-(fxMul st.1 x2) / ((i : Int) + 1), st.2 + st.1 / (2 * (i : Int) + 1))) (x, 0)).2
  fxDiv (2 * s) (fxSqrt fxPi)

/-- RNE of a fixed-point number × 2^64 (R132). -/
def fxRound64 (x : Int) : Int :=
  let d : Int := 2 ^ (fxP - 64)
  let q := x / d
  let r := x % d
  if 2 * r > d then q + 1 else if 2 * r = d then q + q % 2 else q

/-- The kernels of R133. -/
inductive FnKernel where
  | exp2 | log2 | rcp | rsqrt | sin | cos | tanh | erf
  deriving DecidableEq, Repr

/-- Taylor coefficients g^(k)(c_j) / k! for k = 0 to d, in fixed point. -/
def fnTaylor (g : FnKernel) (j d : Nat) : List Int :=
  match g with
  | .exp2 =>
    let v := fxExp (fxMul (fxRat j 64) fxLn2)
    (((List.range d).foldl (fun (st : Int × List Int) (k : Nat) =>
      let t := fxMul st.1 fxLn2 / ((k : Int) + 1); (t, st.2 ++ [t])) (v, [v])).2)
  | .log2 =>
    let t := fxRat j 128
    let a0 := fxDiv (2 * fxAtanh (fxDiv (t - fxOne) (t + fxOne))) fxLn2
    let inv := fxRat 128 j
    a0 :: (((List.range d).foldl (fun (st : Int × List Int) (k : Nat) =>
      let p := fxMul st.1 inv
      (p, st.2 ++ [(if k % 2 = 0 then p else -p) / ((k : Int) + 1)])) (fxDiv fxOne fxLn2, [])).2)
  | .rcp => (List.range (d + 1)).map (fun k => fxRat ((if k % 2 = 0 then 1 else -1) * (128 : Int) ^ (k + 1)) (j ^ (k + 1)))
  | .rsqrt =>
    let s := fxSqrt (fxRat 64 j)
    (((List.range d).foldl (fun (st : Int × List Int) (k : Nat) =>
      -- binomial(-1/2, k+1) = binomial(-1/2, k) × −(2k+1) / (2(k+1))
      let t := -(st.1 * (2 * (k : Int) + 1) * 64) / (2 * ((k : Int) + 1) * j)
      (t, st.2 ++ [t])) (s, [s])).2)
  | .sin | .cos =>
    let hp := fxPi / 2
    let sc := fxSinCos (fxMul (fxRat j 64) hp)
    let base := if g = .sin then [sc.1, sc.2, -sc.1, -sc.2] else [sc.2, -sc.1, -sc.2, sc.1]
    (((List.range (d + 1)).foldl (fun (st : Int × List Int) (k : Nat) =>
      (fxMul st.1 hp / ((k : Int) + 1), st.2 ++ [fxMul st.1 (base.getD (k % 4) 0)])) (fxOne, [])).2)
  | .tanh =>
    let e := fxExp (fxRat j 16)
    let y := fxDiv (e - fxOne) (e + fxOne)
    (List.range d).foldl (fun (a : List Int) (k : Nat) =>
      let conv := (List.range (k + 1)).foldl (fun s i => s + fxMul (a.getD i 0) (a.getD (k - i) 0)) 0
      a ++ [((if k = 0 then fxOne else 0) - conv) / ((k : Int) + 1)]) [y]
  | .erf =>
    let c := fxRat j 32
    let b0 := fxDiv fxOne (fxExp (fxMul c c))
    let bs := (List.range d).foldl (fun (b : List Int) (k : Nat) =>
      let prev := if k = 0 then 0 else b.getD (k - 1) 0
      b ++ [-2 * (fxMul c (b.getD k 0) + prev) / ((k : Int) + 1)]) [b0]
    let f := fxDiv (2 * fxOne) (fxSqrt fxPi)
    fxErf c :: (List.range d).map (fun k => fxMul f (bs.getD k 0) / ((k : Int) + 1))

/-- The coefficient table A_0[j] to A_d[j] (R132). -/
def fnCoeffs (g : FnKernel) (j d : Nat) : List Int := (fnTaylor g j d).map fxRound64

/-- The polynomial of R132. -/
def fnPoly (a : List Int) (rq : Int) : Int :=
  match a.reverse with
  | [] => 0
  | top :: rest => rest.foldl (fun h c => c + (h * rq) / 2 ^ 64) top

/-- m × 2^e as a multiple of 2^-64, floor. -/
def floor64 (neg : Bool) (m : Nat) (e : Int) : Int :=
  let v : Int := if neg then -(m : Int) else m
  if 0 ≤ e + 64 then v * 2 ^ (e + 64).toNat else v / 2 ^ (-(e + 64)).toNat

/-- A nonzero magnitude as a fraction in [1, 2) over 2^-64 and an exponent. -/
def normal64 (m : Nat) (e : Int) : Int × Int :=
  let l := m.log2
  (floor64 false m (-(l : Int)), (l : Int) + e)

/-- EXP2 (R133). -/
def fnExp2 (x : Num) : Num :=
  match x with
  | .nan => .nan
  | .inf neg => if neg then .fin false 0 0 else .inf false
  | .fin s m e =>
    let X := floor64 s m e
    if X ≥ 128 * 2 ^ 64 then .inf false
    else if (Num.fin s m e).lt (.fin true 150 0) then .fin false 0 0
    else
      let n := X / 2 ^ 64
      let u := X - n * 2 ^ 64
      let j := (u + 2 ^ 57) / 2 ^ 58
      .ofInt (fnPoly (fnCoeffs .exp2 j.toNat 4) (u - j * 2 ^ 58)) (n - 64)

/-- LOG2 (R133). -/
def fnLog2 (x : Num) : Num :=
  match x with
  | .nan => .nan
  | .inf neg => if neg then .nan else .inf false
  | .fin s m e =>
    if m = 0 then .inf true else if s then .nan
    else
      let (f, ex) := normal64 m e
      let (mq, ex) := if f ≥ 3 * 2 ^ 63 then (f / 2, ex + 1) else (f, ex)
      let j := (mq * 128 + 2 ^ 63) / 2 ^ 64
      let h := fnPoly (fnCoeffs .log2 j.toNat 6) (mq - j * 2 ^ 57)
      .ofInt (ex * 2 ^ 64 + h) (-64)

/-- RCP (R133). -/
def fnRcp (x : Num) : Num :=
  match x with
  | .nan => .nan
  | .inf neg => .fin neg 0 0
  | .fin s m e =>
    if m = 0 then .inf s
    else
      let (f, ex) := normal64 m e
      let j := (f * 128 + 2 ^ 63) / 2 ^ 64
      let h := fnPoly (fnCoeffs .rcp j.toNat 5) (f - j * 2 ^ 57)
      .fin s h.toNat (-ex - 64)

/-- RSQRT (R133). -/
def fnRsqrt (x : Num) : Num :=
  match x with
  | .nan => .nan
  | .inf neg => if neg then .nan else .fin false 0 0
  | .fin s m e =>
    if m = 0 then .inf s else if s then .nan
    else
      let (f, ex) := normal64 m e
      let (mq, h2) := if ex % 2 = 0 then (f, ex / 2) else (2 * f, (ex - 1) / 2)
      let j := (mq * 64 + 2 ^ 63) / 2 ^ 64
      let h := fnPoly (fnCoeffs .rsqrt j.toNat 5) (mq - j * 2 ^ 58)
      .ofInt h (-h2 - 64)

/-- Q of R133: floor(2^129 / π). -/
def fnQ : Int := (2 ^ (129 + fxP)) / fxPi

/-- SIN and COS beyond what is given outright (R133): quadrant, and the two kernels at the reduced argument. -/
def fnTrig (m : Nat) (e : Int) : Nat × Int × Int :=
  let v : Int := (m : Int) * fnQ
  let T : Int := if 0 ≤ e - 64 then v * 2 ^ (e - 64).toNat else v / 2 ^ (64 - e).toNat
  let N := ((T / 2 ^ 64) % 4).toNat
  let ph := T % 2 ^ 64
  let j := (ph + 2 ^ 57) / 2 ^ 58
  let rq := ph - j * 2 ^ 58
  (N, fnPoly (fnCoeffs .sin j.toNat 6) rq, fnPoly (fnCoeffs .cos j.toNat 6) rq)

/-- |x| ≥ 2^k. -/
def magGe (m : Nat) (e k : Int) : Bool := match (Num.fin false m e).ilog with | some l => decide (k ≤ l) | none => false

/-- SIN (R133); the second part says that FN_RANGE counts. -/
def fnSin (x : Num) : Num × Bool :=
  match x with
  | .nan | .inf _ => (.nan, false)
  | .fin s m e =>
    if magGe m e 24 then (.nan, true)
    else if !(magGe m e (-12)) then (.fin s m e, false)
    else
      let (N, hs, hc) := fnTrig m e
      let v := match N with | 0 => hs | 1 => hc | 2 => -hs | _ => -hc
      (.ofInt (if s then -v else v) (-64), false)

/-- COS (R133). -/
def fnCos (x : Num) : Num × Bool :=
  match x with
  | .nan | .inf _ => (.nan, false)
  | .fin _ m e =>
    if magGe m e 24 then (.nan, true)
    else
      let (N, hs, hc) := fnTrig m e
      (.ofInt (match N with | 0 => hc | 1 => -hs | 2 => -hc | _ => hs) (-64), false)

/-- TANH (R133). -/
def fnTanh (x : Num) : Num :=
  match x with
  | .nan => .nan
  | .inf s => .fin s 1 0
  | .fin s m e =>
    if !(magGe m e (-12)) then .fin s m e
    else
      let q := floor64 false m e
      if q ≥ 19 * 2 ^ 63 then .fin s 1 0
      else
        let j := (q * 32 + 2 ^ 63) / 2 ^ 64
        .fin s (fnPoly (fnCoeffs .tanh j.toNat 7) (q - j * 2 ^ 59)).toNat (-64)

/-- ERF (R133). -/
def fnErf (x : Num) : Num :=
  match x with
  | .nan => .nan
  | .inf s => .fin s 1 0
  | .fin s m e =>
    if magGe m e 2 then .fin s 1 0
    else if !(magGe m e (-12)) then .fin s (m * (fxRound64 (fxDiv (2 * fxOne) (fxSqrt fxPi))).toNat) (e - 64)
    else
      let q := floor64 false m e
      let j := (q * 32 + 2 ^ 63) / 2 ^ 64
      .fin s (fnPoly (fnCoeffs .erf j.toNat 7) (q - j * 2 ^ 59)).toNat (-64)

end Sys2Proof
end

