-- ==== Sys2Proof/Machine/Fn.lean ====
section
/-! DEFINITION. The FN class of F cores (R131 to R147). -/

namespace Sys2Proof.Machine
open Sys2Proof

/-- The frame of an FN instruction: BAD_OPCODE on a V core (R116), FP32 only; when the duplicated units differ, FN_COMPARE and nothing
is written (R147). -/
def fnIssue (n : NodeId) (w : VWord) (s : State) (unit : Nat) (differ : Bool) (f : Node → State → Issued) : Res :=
  vIssue n s (kindOf n == .f) (vEt w == 2) (fun nd s =>
    if differ then
      match f nd s with
      | .done _ _ _ =>
        .fault (s.updNode n (fun d => { d with core := { d.core with fnCompare := satAdd d.core.fnCompare 1 } })) 0x16 (unitLoc unit) unit
      | r => r
    else f nd s)

/-- An FN instruction per element of the 32-bit view; marks count in FN_RANGE when the element is written (R131, R133). -/
def fnTile (n : NodeId) (w : VWord) (s : State) (unit : Nat) (differ : Bool) (f : Num → Num × Bool) : Res :=
  fnIssue n w s unit differ (fun nd s =>
    let res := (elems 32 (nd.core.tile (vA w))).map (fun x => let r := f (f32 x); (toF32 r.1, r.2))
    let m := writeMask 32 w nd.core
    let hits := (m.zip res).countP (fun x => x.1 && x.2.2)
    coreDone n s 16 none (fun c =>
      { c.setTile (vD w) (maskElems 32 m (c.tile (vD w)) (res.map (·.1))) with fnRange := satAdd c.fnRange hits }))

def execExp2 (n : NodeId) (w : VWord) (differ : Bool) (s : State) : Res := fnTile n w s 0 differ (fun x => (fnExp2 x, false))
def execLog2 (n : NodeId) (w : VWord) (differ : Bool) (s : State) : Res := fnTile n w s 1 differ (fun x => (fnLog2 x, false))
def execRcp (n : NodeId) (w : VWord) (differ : Bool) (s : State) : Res := fnTile n w s 2 differ (fun x => (fnRcp x, false))
def execRsqrt (n : NodeId) (w : VWord) (differ : Bool) (s : State) : Res := fnTile n w s 3 differ (fun x => (fnRsqrt x, false))
def execSin (n : NodeId) (w : VWord) (differ : Bool) (s : State) : Res := fnTile n w s 4 differ fnSin
def execCos (n : NodeId) (w : VWord) (differ : Bool) (s : State) : Res := fnTile n w s 4 differ fnCos
def execTanh (n : NodeId) (w : VWord) (differ : Bool) (s : State) : Res := fnTile n w s 5 differ (fun x => (fnTanh x, false))
def execErf (n : NodeId) (w : VWord) (differ : Bool) (s : State) : Res := fnTile n w s 6 differ (fun x => (fnErf x, false))

/-- A value rounded once to FP32. -/
def r32 (v : Num) : Num := f32 (toF32 v)
def e32 (v : Num) : Num := r32 (fnExp2 v)
/-- A softmax statistic (m, s). -/
abbrev Stat := Num × Num
def statNone : Stat := (.inf true, .fin false 0 0)

/-- One element added to a lane's statistic (R135). -/
def smxStep (st : Stat) (y : Num) : Stat :=
  if st.1.isNan || y.isNan || y.isPosInf then (.nan, .nan)
  else if y.isNegInf then st
  else
    let st := if st.1.lt y then (y, r32 (st.2.mul (e32 (r32 (st.1.add y.neg))))) else st
    (st.1, r32 (st.2.add (e32 (r32 (y.add st.1.neg)))))

/-- The merge of two statistics (R136). -/
def smerge (a b : Stat) : Stat :=
  let m := numMax a.1 b.1
  let wt (x : Num) : Num := if x.isNegInf then .fin false 0 0 else e32 (r32 (x.add m.neg))
  (m, r32 ((b.2.mul (wt b.1)).add (r32 (a.2.mul (wt a.1)))))

/-- Lane l's elements of a row in ascending index (R135). -/
def laneElems (ys : List Num) (l : Nat) : List Num := (ys.zipIdx.filter (fun p => p.2 % 64 == l)).map (·.1)

/-- SMX's statistic of a scaled row (R135, R136). -/
def smxRow (ys : List Num) : Stat :=
  (treeFold smerge 6 ((List.range 64).map (fun l => (laneElems ys l).foldl smxStep statNone))).getD 0 statNone

/-- A row of n FP32 values at a byte address, when it lies in the scratchpad and no word of it is bad. -/
inductive RowRead where
  | ok (xs : List Nat)
  | range
  | parity (p : Pad) (row : Nat)
def readRow (n : NodeId) (p : Pad) (a bytes : Nat) : RowRead :=
  if padBytes n < a + bytes then .range
  else
    match p.badWord a bytes with
    | some w => .parity { p with parityLoc := if bit p.parityLoc 63 then p.parityLoc else parityLocWord n w, parityErrors := satAdd p.parityErrors 1 } (w / 256)
    | none => .ok ((chunks 4 (bytes / 4) (p.read a bytes)).map leNat)

/-- A read row handed on, or the fault it raises. -/
def withRow (n : NodeId) (nd : Node) (s : State) (a bytes : Nat) (f : List Nat → Issued) : Issued :=
  match readRow n nd.pad a bytes with
  | .ok xs => f xs
  | .range => .fault s 0x05 0 0
  | .parity p row => .fault (setPad n s p) 0x13 0 row

def ceilDiv (a b : Nat) : Nat := (a + b - 1) / b
def sVal (nd : Node) (r : Nat) : Nat := (nd.core.scalar r).toNat
/-- The FP32 in the low half of a scalar. -/
def sF32 (nd : Node) (r : Nat) : Num := f32 (fld (nd.core.scalar r) 31 0)

/-- SMX (R131, R135). -/
def execSmx (n : NodeId) (w : VWord) (differ : Bool) (s : State) : Res :=
  fnIssue n w s 7 differ (fun nd s =>
    let len := sVal nd (vB w)
    withRow n nd s (sVal nd (vA w)) (4 * len) (fun xs =>
      let st := smxRow (xs.map (fun x => r32 ((f32 x).mul (sF32 nd (vC w)))))
      coreDone n s (ceilDiv len 64 + 64) none (fun c =>
        c.setScalar (vD w) (mkWord 64 [(0, toF32 st.1), (32, toF32 st.2)]))))

/-- SMN in place (R137). -/
def execSmn (n : NodeId) (w : VWord) (differ : Bool) (s : State) : Res :=
  fnIssue n w s 7 differ (fun nd s =>
    let len := sVal nd (vB w)
    let a := sVal nd (vA w)
    withRow n nd s a (4 * len) (fun xs =>
      let mb := fld (nd.core.scalar (vD w)) 31 0
      let sb := fld (nd.core.scalar (vD w)) 63 32
      let m := f32 mb
      let sv := f32 sb
      let p (x : Nat) : Nat :=
        if m.isNan || sv.isNan then 0x7FC00000
        else if m.isNegInf || sb == 0 then 0
        else
          let y := r32 ((f32 x).mul (sF32 nd (vC w)))
          toF32 ((e32 (r32 (y.add m.neg))).mul (r32 (fnRcp sv)))
      .done (setPad n s (nd.pad.write a (xs.flatMap (fun x => leBytes 4 (p x))))) (ceilDiv len 64 + 40) none))

/-- SMERGE (R136). -/
def execSmerge (n : NodeId) (w : VWord) (differ : Bool) (s : State) : Res :=
  fnIssue n w s 7 differ (fun nd s =>
    let st (r : Nat) : Stat := (f32 (fld (nd.core.scalar r) 31 0), f32 (fld (nd.core.scalar r) 63 32))
    let o := smerge (st (vA w)) (st (vB w))
    coreDone n s 1 none (fun c => c.setScalar (vD w) (mkWord 64 [(0, toF32 o.1), (32, toF32 o.2)])))

/-- A key with its index. -/
abbrev Key := Nat × Nat
/-- The rank order and SORT's ascending order (R138). -/
def rankBefore (asc : Bool) (a b : Key) : Bool :=
  let x := f32 a.1
  let y := f32 b.1
  match x.isNan, y.isNan with
  | true, true => decide (a.2 < b.2)
  | true, false => false
  | false, true => true
  | false, false => if x.eq y then decide (a.2 < b.2) else if asc then x.lt y else y.lt x
/-- Keys in order; equal keys keep the order they were read in. -/
def rankSort (asc : Bool) (ks : List Key) : List Key := ks.foldr (rankIns asc) []
where rankIns (asc : Bool) (k : Key) : List Key → List Key
  | [] => [k]
  | h :: t => if rankBefore asc h k then h :: rankIns asc k t else k :: h :: t

def keyBytes (k : Key) : List Byte := leBytes 4 k.1 ++ leBytes 4 k.2

/-- TOPK (R139). -/
def execTopk (n : NodeId) (w : VWord) (differ : Bool) (s : State) : Res :=
  fnIssue n w s 8 differ (fun nd s =>
    let len := sVal nd (vB w)
    let k := sVal nd (vC w)
    let out := sVal nd (vD w)
    if len = 0 ∨ 16777216 < len ∨ k = 0 ∨ 256 < k then .fault s 0x08 0 0
    else if padBytes n < out + 8 * min k len then .fault s 0x05 0 0
    else withRow n nd s (sVal nd (vA w)) (4 * len) (fun xs =>
      .done (setPad n s (nd.pad.write out (((rankSort false xs.zipIdx).take k).flatMap keyBytes))) (ceilDiv len 64 + k + 256) none))

/-- n rounded up to a power of two, at least 64, as its logarithm (R140). -/
def sortLog (n : Nat) : Nat := if n ≤ 64 then 6 else (n - 1).log2 + 1

/-- SORT in place (R139). -/
def execSort (n : NodeId) (w : VWord) (differ : Bool) (s : State) : Res :=
  fnIssue n w s 8 differ (fun nd s =>
    let len := sVal nd (vB w)
    let a := sVal nd (vA w)
    if len = 0 ∨ 4096 < len then .fault s 0x08 0 0
    else withRow n nd s a (8 * len) (fun xs =>
      let ks := (chunks 2 len xs).map (fun p => ((p.getD 0 0, p.getD 1 0) : Key))
      let l := sortLog len
      .done (setPad n s (nd.pad.write a ((rankSort (bit w 0) ks).flatMap keyBytes))) (2 ^ l / 64 * (l * (l + 1) / 2) + 40) none))

/-- A rational p / q as a value close enough to round once to FP32 correctly. -/
def ratNum (p q : Nat) : Num :=
  let x := p * 2 ^ 80
  .fin false (2 * (x / q) + b2n (decide (x % q ≠ 0))) (-81)

/-- What SAMPLE chooses (R145, R146). -/
structure Choice where
  index : Nat
  prob : Nat
  kclamp : Bool
  degen : Bool

/-- SAMPLE's choice for T > 0 (R145). -/
def sampleChoose (xs : List Nat) (t p : Num) (k u : Nat) : Choice :=
  let kc := k == 0 && p.lt (.fin false 1 0)
  let k := if kc then 256 else k
  let beta := r32 ((r32 (fnRcp t)).mul (f32 0x3FB8AA3B))
  let ys := xs.map (fun x => toF32 ((f32 x).mul beta))
  let cand : List Key := if 0 < k then (rankSort false ys.zipIdx).take k else ys.zipIdx
  let m := cand.foldl (fun (a : Num) c => let y := f32 c.1; if y.isNan then a else if a.lt y then y else a) (.inf true)
  let wt (c : Key) : Nat :=
    let y := f32 c.1
    if y.eq m && !m.isNegInf then 2 ^ 32
    else if y.isNan || y.isNegInf || m.isNegInf then 0
    else (match e32 (r32 (y.add m.neg)) with | .fin _ mm e => floor64 false mm (e - 32) | _ => 0).toNat
  let ws := cand.map wt
  let cs := (ws.foldl (fun (st : Nat × List Nat) x => (st.1 + x, st.2 ++ [st.1 + x])) (0, [])).2
  let total := cs.getLastD 0
  if total = 0 then ⟨(cand.getD 0 (0, 0)).2, 0, kc, true⟩
  else
    let keepN :=
      if p.lt (.fin false 1 0) then
        let theta : Int := match p with | .fin sg mm e => (let v : Int := (mm : Int) * total; let v := if sg then -v else v; if 0 ≤ e then v * 2 ^ e.toNat else v / 2 ^ (-e).toNat) | _ => 0
        (cs.findIdx (fun (c : Nat) => decide (theta ≤ (c : Int)))) + 1
      else cs.length
    let kept := cs.take keepN
    let S := kept.getLastD 0
    let thr := u * S / 2 ^ 24
    let q := kept.findIdx (fun (c : Nat) => decide (thr < c))
    ⟨(cand.getD q (0, 0)).2, toF32 (ratNum (ws.getD q 0) S), kc, false⟩

/-- SAMPLE (R139, R143 to R146). -/
def execSample (n : NodeId) (w : VWord) (differ : Bool) (s : State) : Res :=
  fnIssue n w s 9 differ (fun nd s =>
    let len := sVal nd (vB w)
    let rec' := sVal nd (vC w)
    withRow n nd s rec' 32 (fun ps =>
      let t := f32 (ps.getD 0 0)
      let p := f32 (ps.getD 1 0)
      let k := ps.getD 2 0 % 65536
      let stream := ps.getD 2 0 / 65536
      if len = 0 ∨ 16777216 < len ∨ 256 < k ∨ t.isNan ∨ t.lt (.fin false 0 0) then .fault s 0x08 0 0
      else withRow n nd s (sVal nd (vA w)) (4 * len) (fun xs =>
        let zero := t.eq (.fin false 0 0)
        let draw := ps.getD 5 0
        let u := ((philox (fld nd.core.seed 31 0) (fld nd.core.seed 63 32) (ps.getD 3 0) (ps.getD 4 0) draw
          ((0x53410000 + stream) % 2 ^ 32)).getD 0 0) >>> 8
        let c : Choice := if zero then ⟨((rankSort false xs.zipIdx).getD 0 (0, 0)).2, 0x3F800000, false, false⟩ else sampleChoose xs t p k u
        let kt := if k = 0 ∧ p.lt (.fin false 1 0) then 256 else k
        let charge := if kt = 0 then 2 * ceilDiv len 64 + 320 else ceilDiv len 64 + 3 * kt + 320
        let out := leBytes 4 ((draw + 1) % 2 ^ 32) ++ leBytes 4 c.index ++ leBytes 4 c.prob
        .done ((setPad n s (nd.pad.write (rec' + 20) out)).updNode n (fun d => { d with core := { d.core with
          kclamp := satAdd d.core.kclamp (b2n c.kclamp), degen := satAdd d.core.degen (b2n c.degen) } })) charge none)))

end Sys2Proof.Machine
end

