-- ==== Sys2Proof/Machine/Staging.lean ====
section
/-! DEFINITION. The shadow set: WRITE_STAGED, validation, COMMIT and the reconfiguration it starts (R200, R238 to R245, R267, R312, R325 to R327,
R430, R438, R463, R506, R519 to R522, R565, R569, R591, R612, R617). -/

namespace Sys2Proof.Machine
open Sys2Proof

/-- STRIPE_SETS as transferred: per set a count, then L node indices (R528). None: the bytes do not hold whole sets. -/
def parseStripes : Nat → List Byte → Option (List (List Nat))
  | _, [] => some []
  | 0, _ :: _ => none
  | fuel + 1, c :: t =>
    if t.length < c.toNat then none
    else (parseStripes fuel (t.drop c.toNat)).map (fun l => (t.take c.toNat).map BitVec.toNat :: l)
/-- MEM_POOLS as transferred: per L node 17 bytes (R528). -/
def parsePools : Nat → List Byte → Option (List (Nat × U64 × U64))
  | _, [] => some []
  | 0, _ :: _ => none
  | fuel + 1, c :: t =>
    if t.length < 16 then none
    else (parsePools fuel (t.drop 16)).map (fun l => (c.toNat, BitVec.ofNat 64 (leNat (t.take 8)), BitVec.ofNat 64 (leNat ((t.drop 8).take 8))) :: l)
/-- RELAY_TABLE without its DROP entries. -/
def relayOf (v : List Byte) : Table Nat := (v.zipIdx.filter (fun e => e.1 != 0xFF)).map (fun e => (e.2, e.1.toNat))

/-- The range that the tables state for a staged value alone (R438, R463, R506, R528, R530, R599, R627). -/
def stagedInRange (index : Nat) (v : List Byte) : Bool :=
  let n := leNat v
  match index with
  | 0x3001 => decide (n % 32 ≤ 16) && decide (n / 32 % 4 = 0)
  | 0x3012 => decide (n / 256 ≤ 4) && decide (n % 256 < 8)
  | 0x3013 | 0x5020 | 0x5022 | 0x8020 | 0x8022 | 0x8023 | 0x8030 => decide (n ≤ 1)
  | 0x3030 => decide (1 ≤ n) && decide (n ≤ 64)
  | 0x5021 => decide (1 ≤ n) && decide (n ≤ 4096)
  | 0x5023 => decide (100 ≤ n) && decide (n ≤ 60000)
  | 0x5060 => decide (1048576 ≤ n)
  | 0x5061 => decide (65536 ≤ n)
  | 0x7014 => decide (64 ≤ n) && decide (n ≤ 2048)
  | 0x8021 => decide (n < 16) || n == 0xFF
  | 0x8032 => v.all (fun b => decide (b.toNat < 48) || b == 0xFE || b == 0xFF)
  | _ => true

/-- A staged value of a partition put into a set. None: its length does not fit its type (R506). -/
def stagePart (c : PartCfg) (index : Nat) (v : List Byte) : Option PartCfg :=
  let n := leNat v
  match index with
  | 0x3000 => some { c with clusters := BitVec.ofNat 168 n }
  | 0x3001 => some { c with domain := BitVec.ofNat 8 n }
  | 0x3011 => (parseStripes 8 v).bind (fun l => if l.length ≤ 7 then some { c with stripes := l } else none)
  | 0x3012 => some { c with cacheSet := BitVec.ofNat 16 n }
  | 0x3013 => some { c with digestAll := n == 1 }
  | 0x3030 => some { c with exchange := n }
  | 0x4000 => some { c with knotAlloc := n }
  | 0x4002 => (parsePools 253 v).map (fun l => { c with pools := l })
  | 0x5020 => some { c with faultModel := n }
  | 0x5021 => some { c with sampleInterval := n }
  | 0x5022 => some { c with pressure := n == 1 }
  | 0x5023 => some { c with pressureHold := n }
  | 0x5060 => some { c with hangWindow := n }
  | 0x5061 => some { c with ctxWindow := n }
  | 0x7014 => some { c with walkShare := n }
  | 0x8020 => some { c with mirror := n == 1 }
  | 0x8021 => some { c with mirrorPeer := n }
  | 0x8022 => some { c with onTwinLoss := n }
  | 0x8023 => some { c with shadow := n == 1 }
  | _ => none
/-- A staged value put into a set. -/
def stageSet (c : ConfigSet) (index sub : Nat) (v : List Byte) : Option ConfigSet :=
  match index with
  | 0x8030 => some { c with transit := leNat v == 1 }
  | 0x8032 => if v.length = 4096 then some { c with relay := relayOf v } else none
  | _ => (stagePart (c.part (sub - 1)) index v).map (fun x => c.updPart (sub - 1) (fun _ => x))

/-- Objects staged, in ascending index and subindex (R521). -/
def insStaged (l : List (Nat × Nat)) (k : Nat × Nat) : List (Nat × Nat) :=
  match l with
  | [] => [k]
  | y :: t => if k.1 < y.1 ∨ (k.1 = y.1 ∧ k.2 < y.2) then k :: y :: t else if k = y then y :: t else y :: insStaged t k

/-- A requester who does not own the stage, while another does (R519). -/
def notOwner (s : State) (who : Requester) : Bool := match s.stw.d.owner with | some w => w != who | none => false
/-- The requester takes the stage, if nobody owns it and the shadow set is the active set (R519); STAGE_OWNER of a segment requester is open (log 1). -/
def takeStage (s : State) (who : Requester) : State :=
  if s.stw.d.owner.isSome ∨ s.stw.d.shadow ≠ s.stw.d.active then s
  else match who with
    | .function f => s.updDict (fun d => { d with owner := some who, ownerCode := 0x10000 + f })
    | .segment .. => let k := s.takeFree; k.2.updDict (fun d => { d with owner := some who, ownerCode := 0x20000 + Config.free k.1 % 65536 })
/-- A whole value staged: its length, its range, and its place in the shadow set. -/
def stageValue (s0 s : State) (o : Obj) (sub : Nat) (v : List Byte) : Ans :=
  match o.size with
  | some n => if v.length ≠ n then refuse s0 0x02000002 else go
  | none => go
where
  go : Ans :=
    if !stagedInRange o.index v then refuse s0 0x02000001
    else match stageSet s.stw.d.shadow o.index sub v with
      | none => refuse s0 0x02000002
      | some c => done (s.updDict (fun d => { d with shadow := c, staged := insStaged d.staged (o.index, sub) }))

/-- Why a WRITE_STAGED is refused before its value is looked at, or 0 (R507 to R509, R519). -/
def stageRefused (s : State) (who : Requester) (o : Obj) (sub : Nat) : Nat :=
  if !permitted who o sub true then 0x01000004
  else if o.access = .ro then 0x01000002
  else if o.access ≠ .rws then 0x01000005
  else if notOwner s who then 0x03000004
  else if !o.states.contains s.stw.mstate then 0x03000001
  else 0

/-- WRITE_STAGED (R507, R511, R519): a DOMAIN object is transferred, and changes with its last byte. -/
def execWriteStaged (r : Req) (s : State) : Res :=
  onRequest 3 r s (fun s =>
    match objAt r.index.toNat r.sub.toNat with
    | none => refuse s 0x01000001
    | some o =>
      match stageRefused s r.who o r.sub.toNat with
      | 0 =>
        if !o.domain then stageValue s (takeStage s r.who) o r.sub.toNat r.payload
        else
          let a := openWrite s r.who 3 o.index r.sub.toNat r.payload false (fun t v => stageValue s t o r.sub.toNat v)
          if a.code = 0 then { a with s := if s.stw.d.shadow = a.s.stw.d.shadow then takeStage a.s r.who else
            { a.s with stw := { a.s.stw with d := { a.s.stw.d with owner := (takeStage s r.who).stw.d.owner, ownerCode := (takeStage s r.who).stw.d.ownerCode } } } } else a
      | c => refuse s c)

/-- A partition that a COMMIT would reconfigure by seams (R238, R241): RUNNING, changed, its image holding patterns of the next tag. -/
def nextTag (s : State) (p : Nat) : Nat := ((s.node (s.part p).pl.commitHome).pat.ctag + 1) % 4
def seamPart (s : State) (p : Nat) : Bool :=
  (s.part p).state == .running && s.stw.d.active.part p != s.stw.d.shadow.part p &&
    (match (s.part p).pl.image with | some img => !(patternsOf img (nextTag s p)).isEmpty | none => false)

/-- A node with the patterns of the next configuration in slots that are free, armed for what only they enable (R215, R239). Resident regions
that the current configuration holds keep their contents. -/
def loadNext (s : State) (p : Nat) (img : Image) (pl : Placement) (tag : Nat) (n : NodeId) : State :=
  let ks := patternsAt img pl tag n
  let x := s.part p
  s.updNode n (fun d =>
    let free := (List.range 4).filter (fun k => !d.pat.loaded.contains k)
    let now := (cfgSlots d.pat d.pat.ctag).flatMap (fun k => (regionRecs d.pat k).flatMap (regionSlots n))
    let q := (List.zip ks free).foldl (fun (q : Pat) k => { q with
        slots := Table.put q.slots k.2 (placedSlot img pl k.1), loaded := setIns q.loaded k.2
        srKeys := Table.put q.srKeys k.2 (roundKey x.seedUsed x.pl.digest k.1) }) { d.pat with nextCtag := tag, nextValid := true }
    let d : Node := { d with pat := q }
    let d := (List.zip ks free).foldl (fun d k =>
      if (regionRecs d.pat k.2).any (fun r => (regionSlots n r).any now.contains) then d else layPads n img.data d k.2) d
    armNext n d tag)
/-- Input endpoints enabled in both configurations keep MODE, PAD, BASE, SIZE and MAXREC (R240). -/
def keepsInputs (n : NodeId) (d : Node) (tag : Nat) : Bool :=
  (List.range (epCount n)).all (fun e =>
    let a := (d.inEp e).desc
    let b := cfgIn n d.pat tag e
    (d.inEp e).nextOnly || inMode a == 0 || inMode b == 0 || (inMode a == inMode b && fld a 98 63 == fld b 98 63))
/-- Why a partition cannot be reconfigured by seams, or 0 (R239, R240): the next configuration stands on the same nodes, with room for it. -/
def seamRefused (s : State) (p : Nat) : Nat :=
  match (s.part p).pl.image with
  | none => 0
  | some img =>
    match img.place (s.part p).pl.placement with
    | none => 0
    | some pl =>
      let tag := nextTag s p
      let ns := regionOfPlacement img pl tag
      if ns ≠ (s.region p).foldl setIns [] then 0x04000003
      else if ns.any (fun n => decide (4 < (s.node n).pat.loaded.length + (patternsAt img pl tag n).length)) then 0x04000001
      else if ns.all (fun n => keepsInputs n ((loadNext s p img pl tag n).node n) tag) then 0 else 0x04000003

/-- What the twin answers about a partner partition (R617): the spec gives no frame that carries it, so it is open (log 1). -/
def twinAgrees (s : State) : Bool := Config.free s.free % 2 == 0

/-- The check of one staged object beyond its own range (R521), or 0. -/
def checkStaged (s : State) (index sub : Nat) : Nat :=
  let d := s.stw.d
  let p := sub - 1
  let c := d.shadow.part p
  let was := d.active.part p
  let others := (List.range 16).filter (fun q => q != p)
  let d2 := c.prot && c.clusterList.any (fun k => Table.get 0 s.sec.debugCls k == 2)
  match index with
  | 0x3000 =>
    if others.any (fun q => (d.shadow.part q).clusters &&& c.clusters != 0) || d2 then 0x04000003
    else if d.active.transit && c.clusters != was.clusters then 0x03000001
    else 0
  | 0x3001 =>
    if (c.prot && c.dom == 0) || (c.dom != 0 && others.any (fun q => (d.shadow.part q).dom == c.dom)) || d2 then 0x04000003 else 0
  | 0x3011 => if c.stripes.all (fun l => l.all c.lnodes.contains) then 0 else 0x04000003
  | 0x3012 => if fld c.cacheSet 10 8 = 0 ∨ !(c.stripe (fld c.cacheSet 2 0)).isEmpty then 0 else 0x04000003
  | 0x4000 => if c.knotAlloc ≤ 256 * c.lnodes.length then 0 else 0x04000001
  | 0x4002 => if c.pools.all (fun x => c.lnodes.contains x.1 && decide (fld x.2.1 52 36 + fld x.2.1 16 0 ≤ 131072)) then 0 else 0x04000003
  | 0x5020 => if c.faultModel = 1 ∧ !c.mirror then 0x04000003 else 0
  | 0x5060 | 0x5061 => if c.hangWindow < c.ctxWindow then 0x02000001 else 0
  | 0x8020 =>
    if c.mirror ≠ was.mirror ∧ (s.part p).state = .running then 0x03000001
    else if c.mirror ∧ (c.shadow ∨ (!was.mirror ∧ (s.twin.state ≠ twPaired ∨ c.mirrorPeer = 0xFF ∨ !twinAgrees s))) then 0x04000003
    else 0
  | 0x8023 => if c.mirror ∧ c.shadow then 0x04000003 else 0
  | 0x8030 => if d.shadow.transit && (List.range 16).any (fun q => (s.part q).state != .empty) then 0x03000001 else 0
  | _ => 0
/-- The first staged object that fails its range, its states or its chapter's rules, or whose partition cannot be reconfigured (R521). -/
def validate (s : State) : Option (Nat × Nat × Nat) :=
  s.stw.d.staged.findSome? (fun k =>
    match objAt k.1 k.2 with
    | none => none
    | some o =>
      let v := (readObject s true o k.2).2
      let code := if !stagedInRange k.1 v then 0x02000001
        else if !o.states.contains s.stw.mstate then 0x03000001
        else match checkStaged s k.1 k.2 with
          | 0 => if o.lo = 1 ∧ seamPart s (k.2 - 1) then seamRefused s (k.2 - 1) else 0
          | c => c
      if code = 0 then none else some (k.1, k.2, code))

/-- Knots of a partition (R200): the lowest slots of its L nodes in ascending index; those it held keep their counts. -/
def allocKnots (s : State) (p : Nat) : State :=
  let c := s.cfg p
  let new := ((c.lnodes).flatMap (fun l => (List.range 256).map (fun k => 256 * l + k))).take c.knotAlloc
  let old := (s.part p).pl.knots
  let s := (old.filter (fun k => !new.contains k)).foldl (fun s k => s.setKnot k {}) s
  let s := (new.filter (fun k => !old.contains k)).foldl (fun s k => s.setKnot k { alloc := true, part := p }) s
  s.updPart p (fun x => { x with pl := { x.pl with knots := new } })
/-- Frame and Bolt pools of a partition's L nodes (R294, R316, R528), and the pages under them. -/
def setPools (s : State) (p : Nat) : State :=
  let c := s.cfg p
  let s := c.lnodes.foldl (fun s l =>
    let x := match List.find? (fun (x : Nat × U64 × U64) => x.1 == l) c.pools with | some x => x.2 | none => (0, 0)
    s.updLn l (fun y => { y with frameFirst := fld x.1 52 36, frameCount := fld x.1 16 0, boltFirst := fld x.2 62 32, boltCount := fld x.2 30 0 })) s
  mapPart s p
/-- A cache withdrawn (R289, R313): dirty lines written back, nothing kept. -/
def dropCache (s : State) (p : Nat) : State :=
  ((s.cfg p).lnodes).foldl (fun s l =>
    let s := (s.ln l).cache.foldl (fun s c => cacheBack s l c) s
    s.updLn l (fun x => { x with cache := [] })) s

/-- A fresh key-exchange pair of a protected partition (R569); its public part is open (log 1). -/
def freshKex (s : State) (p : Nat) : State :=
  let f := s.takeFree
  f.2.updPart p (fun x => { x with keys := { x.keys with kexPublic := leBytes 1665 (Config.free f.1) } })

/-- A partition takes its staged objects (R165, R166, R200, R245, R325, R569). -/
def applyPart (s : State) (p : Nat) : State :=
  let old := s.cfg p
  let new := s.stw.d.shadow.part p
  if old = new then s
  else
    let st := (s.part p).state
    let s := if old.cacheSet ≠ new.cacheSet ∨ old.clusters ≠ new.clusters ∨ old.stripes ≠ new.stripes then dropCache s p else s
    let s := s.updDict (fun d => { d with active := d.active.updPart p (fun _ => new) })
    let runs := st == .running || st == .paused
    let take := new.nodes.filter (fun n => !(runs && old.clusters.getLsbD (clusterOf n)))
    let s := if old.clusters = new.clusters ∧ old.domain = new.domain then s
      else take.foldl (fun s n => s.updNode n (fun d => assignOwner n p new.dom new.prot d)) s
    let s := if old.clusters = new.clusters ∧ old.knotAlloc = new.knotAlloc then s else allocKnots s p
    let s := if old.clusters = new.clusters ∧ old.pools = new.pools then s else setPools s p
    let s := if old.domain ≠ new.domain ∧ st = .empty then s.updPart p (fun x => { x with keys := {} }) else s
    let s := if new.prot ∧ (!old.prot ∨ old.domain ≠ new.domain) then freshKex s p else s
    let s := if old.clusters = new.clusters then s else installKeys s p
    if st = .running then s else s.updPart p (fun x => { x with histDue := some 0 })

/-- A partition's reconfiguration begins (R239, R241): the next patterns are loaded, the seam order goes to every node, and the host's ends follow. -/
def beginSeam (s : State) (p : Nat) : State :=
  match (s.part p).pl.image with
  | none => s
  | some img =>
    match img.place (s.part p).pl.placement with
    | none => s
    | some pl =>
      let tag := nextTag s p
      let t := (s.part p).next
      let fed := (hostFed s p).map (·.1)
      let s := (s.region p).foldl (fun s n => loadNext s p img pl tag n) s
      let s := (hostFed s p).foldl (fun s f =>
        let k := hostKey p f.1
        if outMode (s.hostIn k).desc = 0 then s.setHostIn k (armedOut (hostInDesc f.2.1 f.2.2.1 f.2.2.2)) else s) s
      let s := s.updPart p (fun x => { x with
        seam := some ⟨s.stw.d.gen + 1, t, [], t, false⟩
        pl := { x.pl with nextImage := some img } })
      let s := (s.region p).foldl (fun s n => sendStep s s.stewardAt n 2 p t) s
      fed.foldl (fun s e => hostSeam s p e) s

/-- Compute cores and L nodes gated, as in PARKED, or released with their panels (R612). -/
def gateAll (s : State) (on : Bool) : State :=
  (allNodes.filter (fun n => kindOf n != .c)).foldl (fun s n => s.updNode n (fun d => { d with parked := on || decide (2 ≤ (s.panel (panelOf n)).state) })) s

/-- The committed set becomes the active set, and the generation counts (R245); flash keeps it (R491). -/
def activate (s : State) (c : ConfigSet) : State :=
  let was := s.stw.d.active.transit
  let s := s.updDict (fun d => { d with active := c, shadow := c, staged := [], committing := none, gen := (d.gen + 1) % 2 ^ 32 })
  let s := { s with brg := { s.brg with config := some c } }
  (if was = c.transit then s else gateAll s c.transit).journalled

/-- A COMMIT refused on one object, which COMMIT_STATUS records (R521). -/
def commitFails (s : State) (f : Nat × Nat × Nat) : Ans :=
  refuse (s.updDict (fun d => { d with commitStatus := f.1 * 2 ^ 48 + f.2.1 * 2 ^ 40 + f.2.2 })) f.2.2
/-- Partitions under reconfiguration (R238). -/
def seamsRun (s : State) : Bool := (List.range 16).any (fun p => (s.part p).seam.isSome)

/-- A COMMIT's set validated (R519 to R522), then given to `go`. -/
def commitChecked (s : State) (who : Requester) (go : State → Ans) : Ans :=
  if notOwner s who then refuse s 0x03000004
  else if seamsRun s then refuse s 0x03000001
  else if s.stw.d.shadow = s.stw.d.active then doneWith (s.updDict (fun d => { d with owner := none, ownerCode := 0, staged := [] })) (leBytes 4 s.stw.d.gen)
  else match validate s with
    | some f => commitFails s.takeFree.2 f
    | none => go s.takeFree.2

/-- COMMIT (R238 to R241, R245, R519 to R522): the shadow set is validated; partitions that do not reconfigure by seams take it now, and the rest
when their last node has switched. The answer does not wait for them. -/
def execCommit (r : Req) (s : State) : Res :=
  if r.op = 4 ∧ fld r.flags 6 5 ≠ 0 then .fault .otherRow
  else onRequest 4 r s (fun s => commitChecked s r.who (fun s =>
    let gen := (s.stw.d.gen + 1) % 2 ^ 32
    let set := s.stw.d.shadow
    let ps := List.range 16
    let run := ps.filter (seamPart s)
    let s := (ps.filter (fun p => !run.contains p)).foldl applyPart s
    let s := s.updDict (fun d => { d with owner := none, ownerCode := 0 })
    let s := if run.isEmpty then activate s set else run.foldl beginSeam (s.updDict (fun d => { d with committing := some set }))
    doneWith s (leBytes 4 gen)))

/-- COMMIT with DISCARD (R519, R520): the shadow set is the active set again, and nobody owns it. -/
def execCommitDiscard (r : Req) (s : State) : Res :=
  if r.op = 4 ∧ !bit r.flags 5 then .fault .otherRow
  else onRequest 4 r s (fun s =>
    if notOwner s r.who then refuse s 0x03000004
    else done (s.updDict (fun d => { d with shadow := d.active, staged := [], owner := none, ownerCode := 0 })))

/-- COMMIT with DRYRUN (R520, R521): validated, and nothing else; the answer carries the generation that the set would take. -/
def execCommitDryrun (r : Req) (s : State) : Res :=
  if r.op = 4 ∧ (bit r.flags 5 ∨ !bit r.flags 6) then .fault .otherRow
  else onRequest 4 r s (fun s0 =>
    if s0.stw.d.shadow = s0.stw.d.active ∧ !notOwner s0 r.who ∧ !seamsRun s0 then doneWith s0 (leBytes 4 s0.stw.d.gen)
    else commitChecked s0 r.who (fun s => doneWith s (leBytes 4 ((s.stw.d.gen + 1) % 2 ^ 32))))

/-- Steps a to b marked timing-dependent (R323, R326). -/
def markSteps (r : Repro) (a b : Nat) : Repro := (rangeFrom a (b + 1 - a)).foldl Repro.mark r

/-- CONFIG_ACTIVATE (R238, R243, R245, R326, R327): the last node of a partition's region has switched. A forced switch takes effect at the last
committed step + 1; another marks every step from the order to the last switch. With no reconfiguration left the committed set is active. -/
def execConfigActivate (p : Nat) (s : State) : Res :=
  if 16 ≤ p then .fault .noSuchUnit
  else
    .next (
      match (s.part p).seam with
      | none => s
      | some r =>
        if !(s.region p).all r.switched.contains then s
        else
          let t := if r.forced then (s.part p).next else r.last
          let s := s.updPart p (fun x => { x with
            seam := none
            pl := { x.pl with image := x.pl.nextImage.or x.pl.image, nextImage := none }
            rep := { (if r.forced then x.rep else markSteps x.rep r.start r.last) with history := x.rep.history ++ [(t, r.gen, if r.forced then 2 else 1)] } })
          match s.stw.d.committing with
          | none => s
          | some c =>
            if seamsRun s then s.updDict (fun d => { d with active := d.active.updPart p (fun _ => c.part p) })
            else activate ((List.range 16).foldl (fun s q => if s.cfg q = c.part q then s else applyPart (s.updDict (fun d => { d with shadow := c })) q) s) c)

end Sys2Proof.Machine
end

