-- ==== Sys2Proof/Machine/Orders.lean ====
section
/-! DEFINITION. Requests that name their object: module states, partitions, bobbins, fencing, retest and resets (R142, R291, R295, R307, R396,
R416, R417, R452 to R456, R461, R490, R515 to R517, R529, R618, R675). -/

namespace Sys2Proof.Machine
open Sys2Proof

/-- The states of a partition other than the ones listed, as an EXECUTE waits for them (R500). -/
def statesBut (l : List Nat) : List Nat := (List.range 8).filter (fun c => !l.contains c)

/-- MODULE_REQUEST 0x03 (R515): SERVICE or SAFE gives way to READY, or, below grade and accepted, to DEGRADED; else it stays. -/
def requestReady (s : State) : State × Nat :=
  if s.stw.mstate ≠ .service ∧ s.stw.mstate ≠ .safe then (s, 0x03000001)
  else
    let b := gradeShort s
    let enter (m : ModuleState) : State := { s with brg := { s.brg with short := b }, stw := { s.stw with mstate := m } }
    (enter (if b = 0 then readyOrRunning s else if s.brg.accept then .degraded else s.stw.mstate), 0)
/-- MODULE_REQUEST 0x06 (R515): every partition is unloaded, one that is being reset once its reset has come that far, and the module is then SAFE. -/
def requestSafe (s : State) : State × Nat :=
  if !([ModuleState.ready, .running, .degraded, .service].contains s.stw.mstate) then (s, 0x03000001)
  else
    let s := { s with stw := { s.stw with safeWanted := true } }
    let s := (List.range 16).foldl (fun s p =>
      match (s.part p).state with
      | .empty => s
      | .draining | .resetting => s.updPart p (fun x => { x with resetFor := if x.resetFor = some 4 then some 4 else some 1 })
      | .running => beginReset (pausePart s p 0x0C) p 1
      | _ => beginReset s p 1) s
    (moduleFollows s, 0)
/-- MODULE_REQUEST 0x07 (R515): SERVICE, with every partition EMPTY and someone present. -/
def requestService (s : State) : State × Nat :=
  if !([ModuleState.ready, .degraded, .safe].contains s.stw.mstate) || (List.range 16).any (fun p => (s.part p).state != .empty) then (s, 0x03000001)
  else if !presence s then (s, 0x05000001)
  else ({ s with stw := { s.stw with mstate := .service } }, 0)

/-- MODULE_REQUEST_READY (R515). -/
def execModuleRequestReady (h : ReqHdr) (s : State) : Res := onObject h 0x2001 0 s (fun s => answerOf s (requestReady s) none)
/-- MODULE_REQUEST_SAFE (R515): EXECUTE answers once the module is SAFE. -/
def execModuleRequestSafe (h : ReqHdr) (s : State) : Res :=
  onObject h 0x2001 0 s (fun s => let r := requestSafe s; answerOf s r (if r.1.stw.mstate = .safe then none else some (18, [])))
/-- MODULE_REQUEST_SERVICE (R515, R523). -/
def execModuleRequestService (h : ReqHdr) (s : State) : Res := onObject h 0x2001 0 s (fun s => answerOf s (requestService s) none)

/-- PARTITION_CMD START (R516). -/
def execStart (h : ReqHdr) (p : Nat) (s : State) : Res := onObject h 0x3004 (p + 1) s (fun s => answerOf s (cmdStart s p) none)
/-- PARTITION_CMD PAUSE (R516): EXECUTE answers once the partition has left RUNNING. -/
def execPause (h : ReqHdr) (p : Nat) (s : State) : Res := onObject h 0x3004 (p + 1) s (fun s => answerOf s (cmdPause s p) (some (p, statesBut [3])))
/-- PARTITION_CMD RESUME (R516). -/
def execResume (h : ReqHdr) (p : Nat) (s : State) : Res := onObject h 0x3004 (p + 1) s (fun s => answerOf s (cmdResume s p) none)
/-- PARTITION_CMD UNLOAD (R516, R517): EXECUTE answers once the partition is EMPTY. -/
def execUnload (h : ReqHdr) (p : Nat) (s : State) : Res := onObject h 0x3004 (p + 1) s (fun s => answerOf s (cmdUnload s p) (some (p, [0])))
/-- PARTITION_CMD FORCE_SEAM (R243, R516). -/
def execForceSeam (h : ReqHdr) (p : Nat) (s : State) : Res := onObject h 0x3004 (p + 1) s (fun s => answerOf s (cmdForceSeam s p) none)
/-- IMAGE_LOAD (R211, R516): EXECUTE answers once the partition has left LOADING. -/
def execImageLoad (h : ReqHdr) (p : Nat) (img : Image) (s : State) : Res :=
  onObject h 0x3010 (p + 1) s (fun s =>
    let r := beginLoad s p img
    answerOf s r (if (r.1.part p).state = .loading then some (p, statesBut [1]) else none))
/-- TENANT_SEED (R142, R675): a protected partition's seed comes with its keys. -/
def execTenantSeed (h : ReqHdr) (p : Nat) (v : U64) (s : State) : Res :=
  onObject h 0x3014 (p + 1) s (fun s => if (s.cfg p).prot then refuse s 0x03000001 else done (s.updPart p (fun x => { x with tenantSeed := v })))

/-- The lowest free run of units in an L node's region for a page list, clear of general pages and of the frame pool (R291, log 48). -/
def listFit (s : State) (p l n : Nat) : Option Nat :=
  let x := s.ln l
  let taken := (16 * x.frameFirst, 16 * x.frameCount) :: x.ranges
  let g := generalUnits s p
  ((g :: taken.map (fun r => r.1 + r.2)).filter (fun a => decide (g ≤ a) && decide (a + n ≤ 2097152) &&
      taken.all (fun r => decide (a + n ≤ r.1) || decide (r.1 + r.2 ≤ a)))).foldl
    (fun b a => match b with | none => some a | some c => some (min a c)) none

/-- BOBBIN_OPEN (R291, R292, R529, R618): the home's lowest FREE entry, with a page list of empty entries. What the twin answers is open (log 1). -/
def openBobbin (s : State) (who : Requester) (v : List Byte) : Ans :=
  let n (i k : Nat) : Nat := leNat ((v.drop i).take k)
  let p := match who with | .function f => if f = 0 then n 2 1 else f - 1 | .segment .. => n 2 1
  let l := n 0 2
  let fl := nth 0 v 3
  let c := s.cfg p
  let e := ((List.range 4096).find? (fun e => (s.bobbin l e).state == 0))
  let units := (16 * n 12 4 + 4095) / 4096
  if v.length ≠ 32 then refuse s 0x02000002
  else if 16 ≤ p ∨ !c.lnodes.contains l then refuse s 0x02000001
  else if bit fl 1 ∨ fld fl 7 6 ≠ 0 ∨ fld fl 3 2 = 3 ∨ 16 < n 4 1 ∨ n 6 2 < 1 ∨ 4096 < n 6 2 ∨ n 16 8 % 4096 ≠ 0 then refuse s 0x02000001
  else if bit fl 0 ∧ !c.mirror then refuse s 0x02000001
  else
    let full (code : Nat) : Ans := refuse (s.updLn l (fun x => { x with refused := satAdd x.refused 1 })) code
    match e with
    | none => full 0x04000001
    | some e =>
      match listFit s p l units with
      | none => full 0x04000004
      | some at' =>
        let ask := bit fl 0 && mirrored s p
        let f := if ask then s.takeFree else (0, s)
        if ask ∧ Config.free f.1 % 2 ^ 32 ≠ 0 then refuse s (Config.free f.1 % 2 ^ 32)
        else
          let b : Bobbin := { state := 1, part := p, flags := setFld fl 1 1 (b2n c.prot), tpp := n 4 1, planes := n 6 2, keyEpoch := lnEpoch s l, session := BitVec.ofNat 32 (n 8 4),
                              list := at', listCap := n 12 4, aux := n 16 8, auxLen := n 24 4 }
          let s := { f.2 with lining := f.2.lining.zero (linBase l + 4096 * at') (4096 * units) }
          doneWith (s.updLn l (fun x => { x.updBobbin e (fun _ => b) with ranges := if units = 0 then x.ranges else x.ranges ++ [(at', units)] })) (leBytes 4 (4096 * l + e))

/-- A handle's L node and entry, if a requester may close or move that bobbin (R290, R295, R508). -/
def handleAt (s : State) (who : Requester) (handle : Nat) : Option (Nat × Nat) :=
  let l := handle / 4096
  let e := handle % 4096
  let b := s.bobbin l e
  let own := match who with | .function f => f == 0 || b.part == f - 1 | .segment .. => true
  if decide (handle ≤ 1032191) && b.state != 0 && b.state != 2 && own then some (l, e) else none
/-- BOBBIN_CLOSE's effect (R295). -/
def closeBobbin (s : State) (who : Requester) (handle : Nat) : State × Nat :=
  match handleAt s who handle with
  | none => (s, 0x02000001)
  | some (l, e) =>
    if (s.part (s.bobbin l e).part).state = .running then (s.updBobbin l e (fun b => { b with state := 2 }), 0) else (freeBobbin s l e, 0)
/-- The pages of a bobbin that g picks, ascending. -/
def pagesWhere (s : State) (l e : Nat) (g : U128 → Bool) : List Nat :=
  let b := s.bobbin l e
  (List.range b.listCap).filter (fun i => let x := ple s l b i; pleValid x && g x)
/-- BOBBIN_RESIDENCY (R307): each page that is on the wrong side is ordered to the other; the orders change residency only. -/
def moveBobbin (s : State) (who : Requester) (handle : Nat) (up : Bool) : State × Nat :=
  match handleAt s who handle with
  | none => (s, 0x02000001)
  | some (l, e) =>
    if up then
      let ps := (pagesWhere s l e (fun x => !pleLin x)).filter (fun i => !(s.ln l).promos.any (fun q => q.entry == e && q.page == i))
      (s.updLn l (fun x => { x with promos := x.promos ++ ps.map (fun i => (⟨e, i, 33⟩ : PageMove)) }), 0)
    else
      let ps := (pagesWhere s l e pleLin).filter (fun i => !(s.ln l).demos.any (fun q => q.1.entry == e && q.1.page == i))
      (s.updLn l (fun x => { x with demos := x.demos ++ ps.map (fun i => ((⟨e, i, 0⟩ : PageMove), false)) }), 0)

/-- BOBBIN_OPEN (R291, R529). -/
def execBobbinOpen (h : ReqHdr) (payload : List Byte) (s : State) : Res := onObject h 0x4010 0 s (fun s => openBobbin s h.who payload)
/-- BOBBIN_CLOSE (R295). -/
def execBobbinClose (h : ReqHdr) (handle : U32) (s : State) : Res := onObject h 0x4011 0 s (fun s => answerOf s (closeBobbin s h.who handle.toNat) none)
/-- BOBBIN_DEMOTE_ALL (R307). -/
def execBobbinDemoteAll (h : ReqHdr) (handle : U32) (s : State) : Res := onObject h 0x4012 0 s (fun s => answerOf s (moveBobbin s h.who handle.toNat false) none)
/-- BOBBIN_PROMOTE_ALL (R307). -/
def execBobbinPromoteAll (h : ReqHdr) (handle : U32) (s : State) : Res := onObject h 0x4012 0 s (fun s => answerOf s (moveBobbin s h.who handle.toNat true) none)

/-- FENCE_NODE (R417, R418). -/
def fenceOrder (s : State) (n : Nat) : State × Nat := if nodeExists n then (fenceNode s n 0x00 false, 0) else (s, 0x02000001)
def execFenceNode (h : ReqHdr) (n : U32) (s : State) : Res := onObject h 0x5040 0 s (fun s => answerOf s (fenceOrder s n.toNat) none)

/-- Fault codes whose fence a passed test does not lift (R416, R488). -/
def fenceStays (code : Nat) : Bool := code == 0x14 || code == 0x17 || code == 0x21
/-- A node whose retest has passed (R416, R453, R475): its fence is lifted, its router is GOOD with its links free to be trained, its banks are
unassigned. -/
def liftFence (s : State) (n : NodeId) : State :=
  let wasDead := (s.router n).dead
  let s := s.updNode n (fun d => dropOwner n { d.reset with fenced := false })
  let s := s.updRouter n (fun x => { x with
    dead := false
    ports := Table.mapVals (fun k (q : Port) => if k = 4 then { q with state := 1 } else { q with linkHeld := false }) x.ports })
  let s := if wasDead then remapFor s n else s
  let s := s.updMap [n] true (fun _ x => { x with state := 0, router := 0, links := Table.mapVals (fun _ (l : Nat) => if l = 3 then 1 else l) x.links })
  gradeCheck (s.log { s.eventAt 11 0x00 n with gen := s.stw.f.gen })
/-- RETEST_NODE (R416, R461, R473, R474): `pass` is what the neighbour tests show. -/
def retest (s : State) (n : Nat) (pass : Bool) : State × Nat :=
  let e : MapEntry := Table.get {} s.stw.f.map n
  if !nodeExists n then (s, 0x02000001)
  else if e.state ≠ 1 ∨ s.stw.moduleReset.isSome then (s, 0x03000001)
  else if !testDivider (s.panel (panelOf n)).core then (s, 0x03000002)
  else if pass && !fenceStays e.code then (liftFence s n, 0)
  else (s.updNode n (fun d => dropOwner n d.reset), 0)
def execRetestNode (h : ReqHdr) (n : U32) (pass : Bool) (s : State) : Res := onObject h 0x5041 0 s (fun s => answerOf s (retest s n.toNat pass) none)

/-- A node's partition is being reset, or the module is (R461). -/
def higherReset (s : State) (n : NodeId) : Bool :=
  s.stw.moduleReset.isSome || (List.range 16).any (fun p => (s.region p).contains n && ((s.part p).state == .draining || (s.part p).state == .resetting))
/-- RESET_NODE (R453, R461). -/
def resetNodeCmd (s : State) (n : Nat) : State × Nat :=
  if !nodeExists n then (s, 0x02000001) else if higherReset s n then (s, 0x03000001) else (resetNodeOrder s n, 0)
def execResetNode (h : ReqHdr) (n : U32) (s : State) : Res := onObject h 0x5070 0 s (fun s => answerOf s (resetNodeCmd s n.toNat) none)

/-- RESET_CLUSTER (R455, R461): every node of it is reset, and its banks are unassigned. -/
def resetCluster (s : State) (c : Nat) : State × Nat :=
  let busy := (List.range 16).any (fun p => (s.cfg p).clusters.getLsbD c && [PartState.running, .paused, .draining].contains (s.part p).state)
  if 168 ≤ c then (s, 0x02000001)
  else if busy ∨ s.stw.moduleReset.isSome then (s, 0x03000001)
  else ((clusterNodes c).foldl (fun s n => s.updNode n (fun d => dropOwner n d.reset)) s, 0)
def execResetCluster (h : ReqHdr) (c : Byte) (s : State) : Res := onObject h 0x5071 0 s (fun s => answerOf s (resetCluster s c.toNat) none)

/-- RESET_PARTITION (R454, R461): one that is being reset absorbs it; one with nothing loaded has nothing to reset. -/
def resetPartition (s : State) (p : Nat) : State × Nat :=
  if 16 ≤ p then (s, 0x02000001)
  else if s.stw.moduleReset.isSome then (s, 0x03000001)
  else match (s.part p).state with
    | .empty | .loading => (s, 0x03000001)
    | .draining | .resetting => (s, 0)
    | _ => (beginReset s p 0, 0)
def execResetPartition (h : ReqHdr) (p : Byte) (s : State) : Res :=
  onObject h 0x5072 0 s (fun s => let r := resetPartition s p.toNat; answerOf s r (if (r.1.part p.toNat).resetFor.isSome then some (p.toNat, [0, 4, 7]) else none))

/-- RESET_MODULE (R456, R461, R463). -/
def resetModule (s : State) (magic : Nat) : State × Nat := if magic = 0x52455345 then (orderModuleReset s, 0) else (s, 0x02000001)
def execResetModule (h : ReqHdr) (magic : U32) (s : State) : Res :=
  onObject h 0x5073 0 s (fun s => let r := resetModule s magic.toNat; answerOf s r (if r.1.stw.moduleReset.isSome then some (16, []) else none))

/-- Router counters cleared (R395, R396). -/
def Router.clearCounters (r : Router) : Router :=
  { r with
    badPackets := 0, fencedAbsorbed := 0, nacksSent := 0, linkdownDiscards := 0, abortedPackets := 0, ctrlOver := 0
    ports := Table.mapVals (fun _ (q : Port) => { q with crcErrors := 0, retries := 0, flits := [], stalls := [], maxDepth := [], packets := 0 }) r.ports }
/-- COUNTER_CLEAR (R396). -/
def clearRouters (s : State) (v : Nat) : State × Nat :=
  if v = 1 then ({ s with routers := Table.mapVals (fun _ r => Router.clearCounters r) s.routers }, 0) else (s, 0x02000001)
def execCounterClear (h : ReqHdr) (v : Byte) (s : State) : Res := onObject h 0x6010 0 s (fun s => answerOf s (clearRouters s v.toNat) none)

/-- ACCEPT_BELOW_GRADE (R490): written 1 it takes a module in SAFE to DEGRADED at once. -/
def acceptGrade (s : State) (v : Nat) : State × Nat :=
  if 1 < v then (s, 0x02000001)
  else
    ({ s with brg := { s.brg with accept := v == 1 }, stw := { s.stw with mstate := if v = 1 ∧ s.stw.mstate = .safe then .degraded else s.stw.mstate } }, 0)
def execAcceptBelowGrade (h : ReqHdr) (v : Byte) (s : State) : Res := onObject h 0x5085 0 s (fun s => answerOf s (acceptGrade s v.toNat) none)

end Sys2Proof.Machine
end

