-- ==== Sys2Proof/Machine/Twin.lean ====
section
/-! DEFINITION. Pairing with a twin: TWIN_PAIR, HELLO, PROOF, heartbeats, acknowledgement, attach, detach and the loss of the twin (R603 to R607,
R613 to R617, R623 to R626). -/

namespace Sys2Proof.Machine
open Sys2Proof

/-- An address is delivered to this module: its own, or one that its relay table calls LOCAL (R608). -/
def isLocal (s : State) (dst : U16) : Bool :=
  dst == s.twin.addr || (decide (dst.toNat < 4096) && Table.get 0xFF s.stw.d.active.relay dst.toNat == 0xFE)

/-- A frame of one type that has reached the module on a port; one of another type is another row's, and one for another module is left to
RELAY_FORWARD (log 10). Every frame on a twin port shows that the twin's side is alive (R623). -/
def onFrame (ty port : Nat) (f : Frame) (s : State) (g : State → State) : Res :=
  if 48 ≤ port then .fault .noSuchUnit
  else if f.ty.toNat ≠ ty then .fault .otherRow
  else .next (if !s.pow.on || (s.spPort port).state ≠ 2 || !isLocal s f.dst then s
    else g (if twinPorts.contains port then { s with twin := { s.twin with lastTwin := s.clock } } else s))

/-- The partition here that is the partner of a partition of the twin (R617, R624). -/
def partnerOf (s : State) (p : Nat) : Option Nat :=
  (List.range 16).find? (fun q => (s.cfg q).mirrorPeer == p && ((s.cfg q).mirror || (s.cfg q).shadow || replica s q || (s.part q).mir.handed))

/-- A pairing that has taken place carries twin traffic: SYNCING, PAIRED or DETACHING (R616). -/
def twinLinked (s : State) : Bool := s.twin.state == twSyncing || s.twin.state == twPaired || s.twin.state == twDetaching
/-- A frame comes from the twin, on a twin port that the twin's HELLO came by (R604). -/
def fromTwin (s : State) (port : Nat) (f : Frame) : Bool :=
  twinPorts.contains port && (match s.twin.peer with | some h => h.addr == f.src && (s.spPort port).peerAddr == h.addr.toNat | none => false)

/-- This module's HELLO content (R614). -/
def ownHello (s : State) : HelloInfo := ⟨BitVec.ofNat 128 (leNat serialText), s.twin.addr, s.twin.domains, s.twin.nonce.getD 0⟩
/-- HELLO payload (R614). -/
def helloBytes (h : HelloInfo) : List Byte :=
  leBytes 16 h.serial.toNat ++ leBytes 2 h.addr.toNat ++ (List.range 4).flatMap (fun i => leBytes 2 (nth 0 h.domains i).toNat) ++ leBytes 16 h.nonce.toNat
/-- HELLO on a twin port; one who has no peer yet knows it from the pairing record (R613, R614). -/
def sendHello (s : State) (port : Nat) : State :=
  if s.twin.addr = 0 then s
  else
    let h := ownHello s
    let e := s.takeFree
    let r := newFrame e.2 fHello 0 (Config.free e.1) 0xFFFFFFFF h.nonce (helloBytes h)
    let dst : U16 := match s.twin.peer with | some q => q.addr | none => BitVec.ofNat 16 (leNat ((s.twin.record.drop 20).take 2))
    putFrame r.1 port 1 { r.2 with dst := dst }
/-- A fresh nonce, open (log 1). -/
def freshNonce (s : State) : State := let f := s.takeFree; { f.2 with twin := { f.2.twin with nonce := some (BitVec.ofNat 128 (Config.free f.1)) } }

/-- SHA-384 of both HELLO payloads, the lower address first (R614). -/
def transcript (s : State) (peer : HelloInfo) : List Byte :=
  let own := ownHello s
  sha384 (if own.addr.toNat ≤ peer.addr.toNat then helloBytes own ++ helloBytes peer else helloBytes peer ++ helloBytes own)
/-- PROOF on a twin port: the chain and both signatures (R614). -/
def sendProof (s : State) (port : Nat) (peer : HelloInfo) : State := sendPlain s port fProof 0 0 (Config.chain ++ Config.sign (transcript s peer))

/-- Domains of two modules that conflict (R615). -/
def domainsConflict (a b : List U16) : Bool := (List.range 4).any (fun i => nth 0 a i == 0 || nth 0 b i == 0 || nth 0 a i == nth 0 b i)
/-- Pairing fails (R614). -/
def pairFail (s : State) (code : Nat) : State :=
  { s with twin := { s.twin with status := code, state := if s.twin.state = twPairing then twUnpaired else s.twin.state, peer := if s.twin.state = twPairing then none else s.twin.peer } }

/-- TWIN_PAIR's effect (R613, R614). -/
def pairTwin (s : State) (v : List Byte) : State × Nat :=
  if v.length ≠ 24 then (s, 0x02000002)
  else if leNat (v.take 2) ≠ 1 ∨ fld (nth 0 v 2) 7 1 ≠ 0 then (s, 0x02000001)
  else if s.twin.state ≠ twUnpaired ∧ s.twin.state ≠ twLost then (s, 0x03000001)
  else
    let s := freshNonce { s with twin := { s.twin with record := v, state := twPairing, override := false, peer := none } }
    ((twinUp s).foldl sendHello s, 0)
/-- TWIN_PAIR (R613). -/
def execTwinPair (h : ReqHdr) (record : List Byte) (s : State) : Res := onObject h 0x8010 0 s (fun s => answerOf s (pairTwin s record) none)

/-- HELLO (R604, R614, R615): the peer is judged against the pairing record, or against TWIN_EXPECT by the module in service, which answers in
kind; each then sends PROOF. Whether the joining module's record overrides a conflict is open to the other side (log 1). -/
def execHello (port : Nat) (f : Frame) (info : HelloInfo) (s : State) : Res :=
  onFrame fHello port f s (fun s =>
    if !twinPorts.contains port then s
    else
      let s := s.updSp port (fun x => { x with peerAddr := f.src.toNat })
      let t := s.twin
      let joins := t.state == twPairing && !t.record.isEmpty
      let wanted := if joins then leBytes 16 info.serial.toNat == (t.record.drop 4).take 16 && leNat ((t.record.drop 20).take 2) == info.addr.toNat
        else leBytes 16 info.serial.toNat == t.expect && !t.expect.all (· == 0)
      let conflict := domainsConflict t.domains info.domains
      if t.state = twPaired ∨ t.state = twSyncing ∨ t.state = twDetaching then
        (match t.peer with | some h => if h.serial = info.serial then s else { s with twin := { t with status := 0x03000001 } } | none => s)
      else if !wanted || info.addr != f.src then pairFail s 0x05000003
      else
        let k := s.takeFree
        let mayJoin := if joins then bit (nth 0 t.record 2) 0 else Config.free k.1 % 2 == 1
        let s := if joins then s else k.2
        if conflict && !mayJoin then pairFail s 0x04000003
        else
          let s := if joins || t.state == twPairing then s else freshNonce { s with twin := { s.twin with state := twPairing, record := [] } }
          let s := { s with twin := { s.twin with peer := some info, override := conflict } }
          sendProof (if joins then s else sendHello s port) port info)

/-- The plaintext of a bobbin's page as its home holds it, from the Lining or decoded from the Bolt. -/
def pageBytes (s : State) (l e i : Nat) : State × List Byte :=
  let b := s.bobbin l e
  let x := ple s l b i
  if pleLin x then let r := frameRead s l (pleFrame x) (pleEpoch x) 0 65536; (r.s, r.data) else let r := readBoltCopy s l b x; (r.1, r.2.1)
/-- A page sent to the twin as eight frames of 8,192 bytes (R625). -/
def sendPage (s : State) (p l e i : Nat) : State :=
  let r := pageBytes s l e i
  let arg := pageArg (s.bobbin l e).session i
  (chunks 8192 8 r.2).foldl (fun s c => sendOn s p fPage (lnStream p l) 0xFFFFFFFF arg c) r.1
/-- Every page of a bobbin at or below LENGTH, ascending (R625). -/
def sendBobbin (s : State) (p l e : Nat) : State :=
  let b := s.bobbin l e
  ((pagesWhere s l e (fun _ => true)).filter (fun i => decide (i / max 1 b.planes * 2 ^ b.tpp < b.length))).foldl (fun s i => sendPage s p l e i) s

/-- Open bobbins of a partition that g picks: L node, entry. -/
def bobbinsOf (s : State) (p : Nat) (g : Bobbin → Bool) : List (Nat × Nat) :=
  ((s.cfg p).lnodes).flatMap (fun l => ((s.ln l).bobbins.filter (fun (eb : Nat × Bobbin) => eb.2.part == p && eb.2.state != 0 && g eb.2)).map (fun eb => (l, eb.1)))

/-- Frames of the L nodes of a partition that await acknowledgement. -/
def drained (s : State) (p : Nat) : Bool := ((s.cfg p).lnodes).all (fun l => (s.stream (lnStream p l)).unacked.isEmpty)

/-- Attach begins (R625): every mirrored bobbin of a primary that is RUNNING or PAUSED is copied, and the pairing is SYNCING until it has been. -/
def attach (s : State) : State :=
  let ps := (List.range 16).filter (fun p => (s.cfg p).mirror && ((s.part p).state == .running || (s.part p).state == .paused))
  let all := ps.flatMap (fun p => (bobbinsOf s p (fun b => b.mirrored && b.state != 3)).map (fun b => (p, b.1, b.2)))
  let s := { s with twin := { s.twin with state := if ps.isEmpty then twPaired else twSyncing, copying := all } }
  let s := all.foldl (fun s b => sendBobbin s b.1 b.2.1 b.2.2) s
  ps.foldl (fun s p => s.updPart p (fun x => { x with mir := { x.mir with resync := false } })) s
/-- Attach ends with the last acknowledgement (R625). -/
def attachStep (s : State) : State :=
  if s.twin.state = twSyncing ∧ (List.range 16).all (fun p => !(s.cfg p).mirror || drained s p) then { s with twin := { s.twin with state := twPaired, copying := [] } } else s

/-- PROOF (R614 to R616, R625): with both chains and signatures good the modules are paired: LINK_ID is taken and streams begin anew. -/
def execProof (port : Nat) (f : Frame) (s : State) : Res :=
  onFrame fProof port f s (fun s =>
    match s.twin.peer with
    | none => s
    | some h =>
      if s.twin.state ≠ twPairing || !fromTwin s port f then s
      else if !Config.signatureOk (transcript s h ++ f.data) then pairFail s 0x05000003
      else attachStep (attach { s with twin := { s.twin with linkId := (transcript s h).take 16, streams := [], lastTwin := s.clock } }))

/-- PAIRING_TIMEOUT (R614): 10 s have passed and no twin port is UP. -/
def execPairingTimeout (s : State) : Res := .next (if s.twin.state = twPairing ∧ (twinUp s).isEmpty then pairFail s 0x06000002 else s)

/-- The hand-over has drained (R626 items 4 and 5): what is not EMPTY is unloaded, and with everything EMPTY both modules are UNPAIRED. -/
def detachUnload (s : State) : State :=
  let s := (List.range 16).foldl (fun s p =>
    match (s.part p).state with
    | .empty | .draining | .resetting => s
    | .running => beginReset (pausePart s p 0x0C) p 1
    | _ => beginReset s p 1) s
  if (List.range 16).all (fun p => (s.part p).state == .empty) then
    answerAwaits { s with twin := { s.twin with state := twUnpaired, override := false, detaching := false, peer := none } } 17 0
  else s
/-- A detach goes on (R626): once every partition with a partner has paused, bobbins drain; once the twin has them, partitions are unloaded. -/
def detachStep (s : State) : State :=
  let ps := (List.range 16).filter (fun p => (s.cfg p).mirrorPeer != 0xFF)
  if s.twin.state ≠ twDetaching then s
  else if s.twin.detaching then (if ps.all (drained s) then detachUnload s else s)
  else if ps.any (fun p => (s.part p).state == .running) then s
  else
    let s := ps.foldl (fun s p =>
      let move := bobbinsOf s p (fun b => b.state != 3 && !(b.mirrored && (s.cfg p).mirror))
      let s := move.foldl (fun s b => sendBobbin (s.updBobbin b.1 b.2 (fun x => { x with state := 4 })) p b.1 b.2) s
      if (s.cfg p).mirror then sendOn s p fCommit (lnStream p (lIndex (s.part p).pl.commitHome)) (s.part p).committed.toNat 0 [] else s) s
    { s with twin := { s.twin with detaching := true } }
/-- TWIN_DETACH's effect (R626). What the twin has room for is open (log 1). -/
def detachTwin (s : State) (v : Nat) : State × Nat :=
  if v ≠ 1 then (s, 0x02000001)
  else if s.twin.state ≠ twPaired then (s, 0x03000001)
  else if (List.range 16).any (fun p => (s.cfg p).mirrorPeer == 0xFF && !(bobbinsOf s p (fun _ => true)).isEmpty) then (s, 0x04000003)
  else
    let f := s.takeFree
    if Config.free f.1 % 2 = 1 then (f.2, 0x04000004)
    else
      let s := { f.2 with twin := { f.2.twin with state := twDetaching, detaching := false } }
      let s := (List.range 16).foldl (fun s p => if (s.cfg p).mirrorPeer ≠ 0xFF ∧ (s.part p).state = .running then
        s.updPart p (fun x => { x with pauseReq := some (x.pauseReq.getD 0x0C) }) else s) s
      (detachStep s, 0)
/-- TWIN_DETACH (R626): EXECUTE answers once both modules are UNPAIRED. -/
def execTwinDetach (h : ReqHdr) (v : Byte) (s : State) : Res :=
  onObject h 0x8012 0 s (fun s => let r := detachTwin s v.toNat; answerOf s r (if r.1.twin.state = twDetaching then some (17, []) else none))

/-- HEARTBEAT_SEND (R616): from pairing on, every twin port that is UP; a detach under way goes on with it. -/
def execHeartbeatSend (s : State) : Res :=
  .next (
    if !s.pow.on || s.twin.state < twSyncing then s
    else detachStep ((twinUp s).foldl (fun s k => sendPlain s k fHeartbeat 0 0 []) s))
/-- HEARTBEAT (R604, R616, R628). -/
def execHeartbeat (port : Nat) (f : Frame) (s : State) : Res :=
  onFrame fHeartbeat port f s (fun s => if twinPorts.contains port then s.updSp port (fun x => { x with peerAddr := f.src.toNat }) else s)

/-- ACK (R607, R625, R626): what it covers need not be sent again; an attach or a detach that waited for it goes on. -/
def execAck (port : Nat) (f : Frame) (s : State) : Res :=
  onFrame fAck port f s (fun s =>
    if !(twinLinked s && fromTwin s port f) then s
    else
      let n := fld f.arg 63 0
      detachStep (attachStep (s.updStream f.stream.toNat (fun x => { x with unacked := x.unacked.filter (fun g => decide (n < g.eseq.toNat)) }))))

/-- A cumulative ACK of a stream (R605, R607). -/
def sendAck (s : State) (stream port : Nat) : State :=
  let n := (s.stream stream).expect
  (if n = 0 then s else sendPlain s port fAck stream (BitVec.ofNat 128 (n - 1)) []).updStream stream (fun x => { x with sinceAck := 0 })
/-- ACK_TIMER (R607): 10 µs after the first delivery that no ACK covers. -/
def execAckTimer (stream : U16) (s : State) : Res :=
  .next (
    match pinned s stream.toNat with
    | some k => if (s.stream stream.toNat).sinceAck = 0 then s else sendAck s stream.toNat k
    | none => s)

/-- Unacknowledged frames of a stream sent again in order on its port (R607, R619). -/
def resendStream (s : State) (stream : Nat) : State :=
  match pinned s stream with
  | some k => (s.stream stream).unacked.foldl (fun s f => putFrame s k 1 f) s
  | none => s
/-- RESEND_TIMER (R607): 200 µs without progress. -/
def execResendTimer (stream : U16) (s : State) : Res := .next (resendStream s stream.toNat)

/-- A page that only the twin could give back is lost with it: its bobbin is LOST (R278, R623). -/
def loseWaiting (s : State) (r : Nat × Nat × Nat) : State :=
  let x := ple s r.1 (s.bobbin r.1 r.2.1) r.2.2
  let s := loseBobbin s r.1 r.2.1
  if pleValid x && pleLin x then s.updLn r.1 (fun y => { y with poison := setDel y.poison (pleFrame x) }) else s
/-- A replay or re-placement that waited for pages begins once none is missing (R235, R277, R424). -/
def restoreDone (s : State) (p : Nat) : State :=
  let x := s.part p
  if !x.mir.restoring.isEmpty || x.state != .running then s
  else restart s p (x.tr.replayCount != 0 && x.tr.replayStep == x.next)

/-- The twin is LOST (R277, R351, R623): each primary pauses or goes on alone, and what waited on a twin's copy is lost. -/
def loseTwin (s : State) : State :=
  let s := { s with twin := { s.twin with state := twLost, detaching := false, copying := [], streams := Table.mapVals (fun _ (x : Sys2Proof.Machine.Stream) => { x with ends := [] }) s.twin.streams } }
  (List.range 16).foldl (fun s p =>
    let wait := (s.part p).mir.restoring
    let s := wait.foldl loseWaiting s
    let s := s.updPart p (fun x => { x with mir := { x.mir with restoring := [] } })
    let s := if wait.isEmpty then s else restoreDone s p
    if (s.part p).state ≠ .running then s
    else if (s.cfg p).mirror then
      if (s.cfg p).onTwinLoss = 0 then pausePart s p 0x03 else commitDecision (s.updPart p (fun x => { x with mir := { x.mir with resync := true } })) p
    else commitDecision s p) s
/-- TWIN_TIMEOUT (R623): no valid flit on any twin port, or an END without its DURABLE, for the time of the object TWIN_TIMEOUT. -/
def execTwinTimeout (s : State) : Res := .next (if twinLinked s then loseTwin s else s)

end Sys2Proof.Machine
end

