-- ==== Sys2Proof/Machine/Frames.lean ====
section
/-! DEFINITION. Frames of mirrored partitions: streams delivered in order, what each type does, and the pages that come back (R277, R300, R332,
R350, R605, R607, R620 to R622, R624 to R626). -/

namespace Sys2Proof.Machine
open Sys2Proof

/-- The open bobbin of a session in a partition: its L node and entry. -/
def sessionAt (s : State) (p : Nat) (session : Nat) : Option (Nat × Nat) := (bobbinsOf s p (fun b => b.session.toNat == session)).head?

/-- A page's frame holds the bytes a twin sent, and is no longer poisoned; with no frame to be had the bobbin is LOST (R277, R620, R625). -/
def putPage (s : State) (l e i : Nat) (data : List Byte) : State :=
  let b := s.bobbin l e
  let x := ple s l b i
  let ep := lnEpoch s l
  if b.listCap ≤ i then s
  else if pleValid x && pleLin x then
    let s := frameWrite s l (pleFrame x) ep 0 data
    let s := setPle s l b i (setFld (setFld x 67 52 ep) 124 124 1)
    s.updLn l (fun y => { y with poison := setDel y.poison (pleFrame x) })
  else
    match takeFrame s l with
    | none => loseBobbin s l e
    | some (s, f) =>
      let s := frameWrite s l f ep 0 data
      let s := setPle s l b i (mkPle true (pleBolt x) true (pleNarrowed x) (pleCodec x) (pleClen x) f (pleBslot x) ep)
      s.updLn l (fun y => { y.updBobbin e (fun b => { b with linPages := b.linPages + 1 }) with poison := setDel y.poison f })

/-- A whole page has come (R277, R424, R625): one that a replay waits for is restored, any other belongs to a copy. -/
def takePage (s : State) (p session i : Nat) (data : List Byte) : State :=
  match sessionAt s p session with
  | none => s
  | some (l, e) =>
    let s := putPage s l e i data
    let wait := (s.part p).mir.restoring
    if !wait.contains (l, e, i) then s
    else
      let left := wait.filter (fun r => r != (l, e, i))
      let s := s.updPart p (fun x => { x with mir := { x.mir with restoring := left } })
      let s := if left.any (fun r => r.1 == l && r.2.1 == e) then s else s.updBobbin l e (fun b => if b.state = 4 then { b with state := 1 } else b)
      if left.isEmpty then restoreDone s p else s

/-- An APPEND of the primary written into the shadow bobbin as one with ADV = 1 (R300, R620). -/
def mirrorAppend (s : State) (p step : Nat) (arg : U128) (data : List Byte) : State :=
  match sessionAt s p (fld arg 31 0) with
  | none => s
  | some (l, e) =>
    let b := s.bobbin l e
    let plane := fld arg 47 32
    let first := fld arg 95 64
    let i := b.pageOf first plane
    if b.state = 3 ∨ b.planes ≤ plane ∨ !tokensFit b first data.length ∨ b.listCap ≤ i ∨ data.isEmpty then s
    else
      let s := s.updBobbin l e (fun b => { b with lastStep := step })
      match (if pageAway s l b i then promotePage s l e i else some s).bind (fun s => readyPage s l e i) with
      | none => s
      | some s =>
        let top := first + data.length / b.tokenBytes
        (putTokens s l e i first data).updBobbin l e (fun b => if step % 2 = 0 then { b with end0 := max b.end0 top } else { b with end1 := max b.end1 top })

/-- COMMIT of the primary's step in the shadow (R300, R620, R621): its L nodes commit it, and a sampled step next is run for its digest, which
is open (log 1). -/
def mirrorCommit (s : State) (p t : Nat) : State :=
  let s := ((s.cfg p).lnodes).foldl (fun s l => commitLNode s l t) s
  let s := s.updPart p (fun x => { x with mir := { x.mir with committed := BitVec.ofNat 32 t, durable := x.mir.durable.filter (fun d => decide (t < d.2)) } })
  let s := { s with twin := { s.twin with inputs := s.twin.inputs.filter (fun i => i.part != p || decide (t < i.step)) } }
  if (s.cfg p).shadow && (s.cfg p).faultModel == 1 && sampled s p (t + 1) then
    let f := s.takeFree
    sendOn f.2 p fDigest (lnStream p (((s.cfg p).lnodes).headD 0)) (t + 1) 0 (leBytes 48 (Config.free f.1))
  else s

/-- DURABLE of a stream's step recorded, once each. -/
def addDurable (s : State) (p k t : Nat) : State :=
  s.updPart p (fun x => { x with mir := { x.mir with durable := if x.mir.durable.contains (k, t) then x.mir.durable else x.mir.durable ++ [(k, t)] } })
/-- END (R350, R620): an exchange is in full; a mirrored stream's step is written, and DURABLE goes back. -/
def takeEnd (s : State) (p stream t : Nat) : State :=
  if stream % 256 = 254 then commitDecision (addDurable s p (exchangeStream p) t) p
  else sendOn (if stream % 256 = 255 then addDurable s p stream t else s) p fDurable (256 * p + stream % 256) t (BitVec.ofNat 128 stream) []
/-- DURABLE (R621). -/
def takeDurable (s : State) (p k t : Nat) : State :=
  commitDecision (addDurable (s.updStream k (fun x => { x with ends := x.ends.filter (fun e => e.1 != t) })) p k t) p
/-- FETCH (R277): the page goes back, if it exists. -/
def takeFetch (s : State) (p session i : Nat) : State :=
  match sessionAt s p session with
  | some (l, e) => if (pagesWhere s l e (fun _ => true)).contains i then sendPage s p l e i else s
  | none => s
/-- PAGE (R625): its frames come in order on their stream. -/
def takePiece (s : State) (p stream : Nat) (arg : U128) (data : List Byte) : State :=
  let x := s.stream stream
  let buf := (if x.pageArg = arg then x.pageBuf else []) ++ data
  if buf.length < 65536 then s.updStream stream (fun x => { x with pageArg := arg, pageBuf := buf })
  else takePage (s.updStream stream (fun x => { x with pageBuf := [] })) p (fld arg 31 0) (fld arg 63 32) (buf.take 65536)
/-- EXCHANGE (R350): gradient bytes of a step not committed yet. -/
def takeGradient (s : State) (p t off : Nat) (data : List Byte) : State :=
  if t < (s.part p).next then s
  else s.updPart p (fun x =>
    let old : Memory := match List.find? (fun (e : Nat × Memory) => e.1 == t) x.mir.exchange with | some e => e.2 | none => []
    { x with mir := { x.mir with exchange := x.mir.exchange.filter (fun e => e.1 != t) ++ [(t, old.write off data)] } })
/-- MGMT is the firmware's own (R605): whether it is the hand-over of a detach, which R626 asks for and no other frame brings, is open (log 1). -/
def takeMgmt (s : State) (p : Nat) : State :=
  let k := s.takeFree
  if Config.free k.1 % 2 = 0 ∨ !(s.cfg p).shadow then k.2
  else
    let clear (c : ConfigSet) : ConfigSet := c.updPart p (fun c => { c with shadow := false })
    let s := (k.2.updDict (fun d => { d with active := clear d.active, shadow := clear d.shadow })).updPart p (fun x => { x with mir := { x.mir with handed := true } })
    { s with twin := { s.twin with state := twUnpaired, override := false, peer := none } }

/-- What a delivered frame does in the partition here that it is for (R605). -/
def deliverFrame (s : State) (p : Nat) (f : Frame) (data : List Byte) : State :=
  let ty := f.ty.toNat
  let stream := f.stream.toNat
  let t := f.step.toNat
  if ty = fAppend then mirrorAppend s p t f.arg data
  else if ty = fInput then { s with twin := { s.twin with inputs := s.twin.inputs ++ [⟨p, t, fld f.arg 7 0, fld f.arg 15 8, fld f.arg 31 16, data⟩] } }
  else if ty = fEnd then takeEnd s p stream t
  else if ty = fDurable then takeDurable s p (fld f.arg 15 0) t
  else if ty = fCommit then mirrorCommit s p t
  else if ty = fFetch then takeFetch s p (fld f.arg 31 0) (fld f.arg 63 32)
  else if ty = fPage then takePiece s p stream f.arg data
  else if ty = fDigest then
    commitDecision (s.updPart p (fun x => { x with mir := { x.mir with twinDigests := x.mir.twinDigests.filter (fun d => d.1 != t) ++ [(t, data)] } })) p
  else if ty = fExchange then takeGradient s p t (fld f.arg 63 0) data
  else takeMgmt s p

/-- A frame for a partition here, opened and delivered; what cannot be opened, or is for no partition here, does nothing (R622). -/
def openDeliver (s : State) (f : Frame) : State :=
  match partnerOf s (f.stream.toNat / 256) with
  | none => s
  | some p => (openFrame s p f).elim s (deliverFrame s p f)
/-- One frame of a stream delivered and counted for its ACK (R607). -/
def deliverOne (s : State) (port : Nat) (f : Frame) : State :=
  let stream := f.stream.toNat
  let s := openDeliver (s.updStream stream (fun x => { x with expect := x.expect + 1, sinceAck := x.sinceAck + 1 })) f
  if 64 ≤ (s.stream stream).sinceAck then sendAck s stream port else s
/-- Frames held ahead of a gap that are now in order (R607). -/
def deliverHeld (port stream : Nat) : Nat → State → State
  | 0, s => s
  | fuel + 1, s =>
    match (s.stream stream).held.find? (fun g => g.eseq.toNat == (s.stream stream).expect) with
    | none => s
    | some g => deliverHeld port stream fuel (deliverOne (s.updStream stream (fun x => { x with held := x.held.filter (fun h => h != g) })) port g)

/-- A frame of a numbered stream (R604, R607, R622): one whose tag fails is discarded and counted, a duplicate too, one ahead of a gap is held. -/
def streamFrame (ty port : Nat) (f : Frame) (s : State) : Res :=
  onFrame ty port f s (fun s =>
    let stream := f.stream.toNat
    let x := s.stream stream
    let n := f.eseq.toNat
    if !(twinLinked s && fromTwin s port f) then s
    else if (match partnerOf s (stream / 256) with | some p => (openFrame s p f).isNone | none => false) then
      s.updSp port (fun q => { q with tagFails := satAdd q.tagFails 1 })
    else if n < x.expect || x.held.any (fun g => g.eseq.toNat == n) then s.updSp port (fun q => { q with dupFrames := satAdd q.dupFrames 1 })
    else if x.expect < n then s.updStream stream (fun x => { x with held := x.held ++ [f] })
    else deliverHeld port stream x.held.length (deliverOne s port f))

/-- APPEND (R620). -/
def execAppendFrame (port : Nat) (f : Frame) (s : State) : Res := streamFrame fAppend port f s
/-- INPUT (R620). -/
def execInputFrame (port : Nat) (f : Frame) (s : State) : Res := streamFrame fInput port f s
/-- END (R350, R620). -/
def execEndFrame (port : Nat) (f : Frame) (s : State) : Res := streamFrame fEnd port f s
/-- DURABLE (R233, R621). -/
def execDurable (port : Nat) (f : Frame) (s : State) : Res := streamFrame fDurable port f s
/-- COMMIT (R620, R621). -/
def execCommitFrame (port : Nat) (f : Frame) (s : State) : Res := streamFrame fCommit port f s
/-- FETCH (R277, R605). -/
def execFetch (port : Nat) (f : Frame) (s : State) : Res := streamFrame fFetch port f s
/-- PAGE (R277, R625, R626). -/
def execPage (port : Nat) (f : Frame) (s : State) : Res := streamFrame fPage port f s
/-- DIGEST (R332 to R334). -/
def execDigest (port : Nat) (f : Frame) (s : State) : Res := streamFrame fDigest port f s
/-- EXCHANGE (R350, R624). -/
def execExchange (port : Nat) (f : Frame) (s : State) : Res := streamFrame fExchange port f s
/-- MGMT (R605): its content is the firmware's own. -/
def execSpakanMgmt (port : Nat) (f : Frame) (s : State) : Res := streamFrame fMgmt port f s

end Sys2Proof.Machine
end

