-- ==== Sys2Proof/Machine/Spakan.lean ====
section
/-! DEFINITION. Spakan ports and the relay (R389, R600 to R602, R606, R608 to R611, R619). -/

namespace Sys2Proof.Machine
open Sys2Proof

/-- The edge a hem stands on: 0 south, 1 north, 2 west, 3 east (R23). -/
def hemEdge (h : Nat) : Nat := if h < 7 then 0 else if h < 14 then 1 else if h < 20 then 2 else 3
/-- The perimeter router that a Spakan port's traffic enters the mesh by. -/
def spRouter (k : Nat) : NodeId := (hemRouter (spakanHem k).1 (spakanHem k).2).1
/-- The corner a relay path turns at (R389, R609). -/
def relayCorner (src dst : NodeId) (a b : Nat) : Option NodeId :=
  match a, b with
  | 0, 1 => some (nodeAt (if nx src < 28 then 0 else 55) 47)
  | 1, 0 => some (nodeAt (if nx src < 28 then 0 else 55) 0)
  | 2, 0 => some (nodeAt 0 0)
  | 2, 1 => some (nodeAt 0 47)
  | 3, 0 => some (nodeAt 55 0)
  | 3, 1 => some (nodeAt 55 47)
  | 2, 3 => some (nodeAt 0 (if ny dst < 24 then 0 else 47))
  | 3, 2 => some (nodeAt 55 (if ny dst < 24 then 0 else 47))
  | _, _ => none
/-- The relay path between two ports: none within one hem, whose crossbar joins them. -/
def relayPath (a b : Nat) : Option (NodeId × NodeId × Option NodeId) :=
  let ha := (spakanHem a).1
  let hb := (spakanHem b).1
  if ha = hb then none else some (spRouter a, spRouter b, relayCorner (spRouter a) (spRouter b) (hemEdge ha) (hemEdge hb))
/-- Routers of a relay path. -/
def relayRouters (a b : Nat) : List NodeId :=
  match relayPath a b with
  | none => []
  | some (x, y, some w) => (legPath w 128 x).map (·.1) ++ (legPath y 128 w).map (·.1) ++ [y]
  | some (x, y, none) => (legPath y 128 x).map (·.1) ++ [y]
/-- A relay path that the fabric manager has not withdrawn: its routers and links stand (R389, R611). -/
def relayOpen (s : State) (a b : Nat) : Bool := match relayPath a b with | none => true | some (x, y, w) => routeOk s x y w

/-- Frames held for a port go out in order while it is UP (R609, R610). -/
def flushRelay (s : State) (k : Nat) : State :=
  let x := s.spPort k
  if x.state ≠ 2 then s else x.queue.foldl (fun s q => putFrame s k q.1 q.2) (s.updSp k (fun x => { x with queue := [] }))

/-- The frame types of R605. -/
def knownType (ty : Nat) : Bool := decide (1 ≤ ty ∧ ty ≤ 4) || decide (0x10 ≤ ty ∧ ty ≤ 0x19)
/-- RELAY_FORWARD (R605, R606, R608 to R611): a frame for another module goes on by the relay table; one for this module of a reserved TYPE is
discarded here, and one of another TYPE is that TYPE's row's (log 10). -/
def execRelayForward (port : Nat) (f : Frame) (s : State) : Res :=
  if 48 ≤ port then .fault .noSuchUnit
  else
    .next (
      let count (g : SpPort → SpPort) : State := s.updSp port g
      let hops := f.hops.toNat - 1
      let out := Table.get 0xFF s.stw.d.active.relay (f.dst.toNat % 4096)
      if !s.pow.on || (s.spPort port).state ≠ 2 || (isLocal s f.dst && knownType f.ty.toNat) then s
      else if isLocal s f.dst then count (fun x => { x with badFrames := satAdd x.badFrames 1 })
      else if s.twin.addr = 0 ∧ !(fromTwin s port f) then count (fun x => { x with relayDrops := satAdd x.relayDrops 1 })
      else if hops = 0 then count (fun x => { x with ttlDrops := satAdd x.ttlDrops 1 })
      else if 4096 ≤ f.dst.toNat ∨ 48 ≤ out then count (fun x => { x with relayDrops := satAdd x.relayDrops 1 })
      else if !relayOpen s port out then count (fun x => { x with relayNopath := satAdd x.relayNopath 1 })
      else flushRelay (s.updSp out (fun x => { x with queue := x.queue ++ [(2, { f with hops := BitVec.ofNat 8 hops })] })) out)
/-- RELAY_EXPIRY (R610): the frame held longest at an output has waited 10 ms. -/
def execRelayExpiry (port : Nat) (s : State) : Res :=
  if 48 ≤ port then .fault .noSuchUnit
  else .next (if (s.spPort port).queue.isEmpty then s else s.updSp port (fun x => { x with queue := x.queue.tail, relayExpired := satAdd x.relayExpired 1 }))

/-- The list of twin ports that are UP has changed: streams are pinned anew and send again what is not acknowledged (R607, R619). -/
def repin (s : State) (port : Nat) : State := if twinPorts.contains port then s.twin.streams.foldl (fun s e => resendStream s e.1) s else s

/-- SPAKAN_LINK_TRAINING (R601, R614, R628): polarity and lane order are corrected, and a port with a failed lane keeps its healthy four. A twin
port that comes up during pairing sends HELLO. -/
def execSpakanLinkTraining (port : Nat) (lanesFailed polarity : Byte) (permuted light isSpakan : Bool) (s : State) : Res :=
  if 48 ≤ port then .fault .noSuchUnit
  else
    let four := lanesFailed.toNat % 16 == 0 || lanesFailed.toNat / 16 == 0
    .next (
      if !s.pow.on || (s.spPort port).state = 2 then s
      else if !light then s.updSp port (fun x => { x with state := 0, width := 0, lastEvent := 0x04, lanesFailed := lanesFailed.toNat })
      else if !isSpakan then s.updSp port (fun x => { x with state := 0, width := 0, lastEvent := 0x06, lanesFailed := lanesFailed.toNat })
      else
        let s := s.updSp port (fun x => { x with
          state := if four then 2 else 0
          width := if lanesFailed = 0 then 2 else if four then 1 else 0
          lanesFailed := lanesFailed.toNat, polarity := polarity.toNat, orderFixed := permuted
          lastEvent := if lanesFailed ≠ 0 ∧ four then 0x03 else if permuted then 0x02 else if polarity ≠ 0 then 0x01 else x.lastEvent })
        if !four then s
        else
          let s := flushRelay (repin s port) port
          if twinPorts.contains port && s.twin.state == twPairing && !s.twin.record.isEmpty then sendHello s port else s)
/-- SPAKAN_LINK_IDLE_TIMEOUT (R602, R619). -/
def execSpakanLinkIdleTimeout (port : Nat) (s : State) : Res :=
  if 48 ≤ port then .fault .noSuchUnit
  else .next (if (s.spPort port).state ≠ 2 then s else repin (s.updSp port (fun x => { x with state := 0, width := 0 })) port)
/-- SPAKAN_RETRAIN (R602): the link begins to train again. -/
def execSpakanRetrain (port : Nat) (s : State) : Res :=
  if 48 ≤ port then .fault .noSuchUnit
  else .next (if !s.pow.on || (s.spPort port).state ≠ 0 then s else s.updSp port (fun x => { x with state := 1 }))

end Sys2Proof.Machine
end

