-- ==== Sys2Proof/Machine/Heat.lean ====
section
/-! DEFINITION. Panels: dividers, voltage, heat, the power limiter, parking, DARK and loss (R384 to R389, R428, R433, R632, R633, R638 to R657). -/

namespace Sys2Proof.Machine
open Sys2Proof

/-- A record of the power event log (R635, R657, R662, R663). -/
def State.power (s : State) (code subject : Nat) : State :=
  { s with pow := { s.pow with events := (s.pow.events ++ [(⟨code, subject, s.clock⟩ : PowerEvent)]).drop (s.pow.events.length - 255) } }

/-- The core dividers in order (R638): one step slower, one step faster. -/
def slowerDiv (d : Nat) : Nat := if d ≤ 4 then 5 else if d = 5 then 6 else 8
def fasterDiv (d : Nat) : Nat := if 8 ≤ d then 6 else if d = 6 then 5 else 4
/-- A request one step faster; one that the part's clock does not notice is none (R3, R652). -/
def easeReq (s : State) (d : Nat) : Nat := if fasterDiv d ≤ gradeDivider s.brg.grade then 4 else fasterDiv d
/-- The voltage range of a core divider in millivolts (R644). -/
def voltRange (d : Nat) : Nat × Nat := match d with | 4 => (800, 900) | 5 => (730, 830) | 6 => (690, 790) | _ => (630, 730)
def clampVolt (d v : Nat) : Nat := max (voltRange d).1 (min (voltRange d).2 v)

/-- A panel in RUN or THROTTLE takes the slowest of its requests (R640, R645, R647, R652): a changed fabric divider holds its links (R386). -/
def settlePanel (s : State) (k : Nat) : State :=
  let x := s.panel k
  if 2 ≤ x.state then s
  else
    let core := max (gradeDivider s.brg.grade) (max x.thermal x.cap)
    let fabric := if x.deep then 16 else 8
    let slow := x.thermal != 4 || x.cap != 4 || x.deep
    s.updPanel k (fun x => { x with
      core := core, fabric := fabric, volt := clampVolt core x.volt
      state := if slow then 1 else 0
      throttledAt := if slow then some (x.throttledAt.getD s.clock) else none
      linkHold := x.linkHold || fabric != x.fabric, fabricChanged := x.fabricChanged || fabric != x.fabric })

/-- The nodes of a panel that gating stops: every kind but C (R653). -/
def gatedNodes (k : Nat) : List NodeId := (panelNodes k).filter (fun n => kindOf n != .c)
/-- A panel is parked (R639, R645, R646, R653): its cores and L nodes are gated, its fabric runs at /8, and partitions with a node in it are
re-placed. -/
def parkPanel (s : State) (k : Nat) : State :=
  if 2 ≤ (s.panel k).state then s
  else
    let s := s.updPanel k (fun x => { x with
      state := 2, throttledAt := none, hotPark := none, coolSince := none, deep := false, fabric := 8
      linkHold := x.linkHold || x.fabric != 8, fabricChanged := x.fabricChanged || x.fabric != 8 })
    let s := (gatedNodes k).foldl (fun s n => s.updNode n (fun d => { d with parked := true })) s
    (List.range 16).foldl (fun s p => if (s.part p).state == .running && (s.region p).any (fun n => panelOf n == k) then rePlace s p else s) s
/-- A parked panel returns at core /8 (R645, R652, R653). -/
def unparkPanel (s : State) (k : Nat) : State :=
  let s := s.updPanel k (fun x => { x with state := 1, thermal := 8, coolSince := some s.clock })
  let on := s.stw.d.active.transit
  settlePanel ((gatedNodes k).foldl (fun s n => s.updNode n (fun d => { d with parked := on })) s) k

/-- Routers of a route with its waypoint. -/
def routeRouters (a b : NodeId) (way : Option NodeId) : List NodeId :=
  (match way with | some w => legPath w 128 a ++ legPath b 128 w | none => legPath b 128 a).map (fun (x : NodeId × Nat) => x.1) ++ [b]
/-- A partition whose region is armed (R388). -/
def isArmed (x : Partition) : Bool := !x.pl.region.isEmpty && !([PartState.empty, .loading, .faulted].contains x.state)
/-- Why a panel may not go DARK: the lowest code of R388 and R654, 0 if none. -/
def darkReason (s : State) (k : Nat) : Nat :=
  let here (r : NodeId) : Bool := panelOf r == k
  let armed := (List.range 16).filter (fun p => isArmed (s.part p))
  let outs := armed.any (fun p => (s.region p).any (fun n => (s.node n).outs.any (fun (e : Nat × Ep) => outMode e.2.desc != 0 &&
    (let b := (outDest s n e.2.desc).at'
     let w := if bit e.2.desc 101 then some (nodeAt (fld e.2.desc 100 93) (fld e.2.desc 92 85)) else none
     (routeRouters n b w).any here || (routeRouters b n w).any here))))
  let detours := s.routers.any (fun (r : Nat × Router) => r.2.detour.any (fun (e : Nat × U64) => bit e.2 63 &&
    (routeRouters r.1 (nodeAt (fld e.2 62 55) (fld e.2 54 47)) (some (nodeAt (fld e.2 46 39) (fld e.2 38 31)))).any here))
  let covers := armed.any (fun p => (coverOf s p).any (fun rc => (rangeFrom rc.x0 (rc.x1 + 1 - rc.x0)).any (fun x => (rangeFrom rc.y0 (rc.y1 + 1 - rc.y0)).any (fun y =>
    (routeRouters (s.part p).pl.commitHome (nodeAt x y) none).any here))))
  let relays := ((s.stw.d.active.relay.map (·.2)).filter (fun o => decide (o < 48))).eraseDups.any (fun o => (List.range 48).any (fun i => (relayRouters i o).any here))
  let ls := (panelNodes k).filter (fun n => kindOf n == .l)
  let holds := (List.range 16).any (fun p => (s.part p).state != .empty && (s.cfg p).clusterList.any (fun c => c / 4 == k)) ||
    ls.any (fun n => let x := (s.node n).ln; !x.bobbins.isEmpty || !x.ranges.isEmpty || !x.framesUsed.isEmpty)
  let faces := [3, 10].any (fun h => (List.range 8).any (fun j => here (hemRouter h j).1)) || here stewardNode || here standbyNode
  if outs then 1 else if detours then 2 else if covers then 3 else if relays then 4 else if holds then 5 else if faces then 6 else 0

/-- A node without supply keeps nothing but the repairs that its warden writes back (R453, R654). -/
def Node.dark (d : Node) : Node :=
  { ({} : Node) with
    fenced := d.fenced, parked := true
    mc := { rowRep := d.mc.rowRep, colRep := d.mc.colRep, badRows := d.mc.badRows, badCols := d.mc.badCols }
    pad := { retired := d.pad.retired, badSpares := d.pad.badSpares }
    ln := { spareRows := d.ln.spareRows } }
/-- A parked panel that nothing keeps goes DARK (R388, R652, R654): its logic, routers and Lining lose their supply, and its links are down. -/
def tryDark (s : State) (k : Nat) : State :=
  let why := darkReason s k
  let s := s.updPanel k (fun x => { x with darkReason := why })
  if (s.panel k).state ≠ 2 || why != 0 then s
  else
    let ns := panelNodes k
    let s := s.updPanel k (fun x => { x with state := 3, volt := 0 })
    let s := ns.foldl (fun s n => s.updNode n Node.dark) s
    let s := (ns.filter (fun n => kindOf n == .l)).foldl (fun s n => { s with lining := s.lining.zero (linBase (lIndex n)) 0x200000000 }) s
    ns.foldl (fun s r => [portN, portE, portS, portW].foldl (fun s p =>
      let s := s.updPort r p (fun q => { q with state := 0 })
      match neighbour r p with | some q => s.updPort q (oppPort p) (fun x => { x with state := 0 }) | none => s) s) s
/-- A DARK panel's supplies ramp and its links train; it is then PARKED (R652). -/
def undark (s : State) (k : Nat) : State :=
  if (s.panel k).state ≠ 3 then s
  else
    let s := s.updPanel k (fun x => { x with state := 2, darkReason := 0, fabric := 8, coolSince := none, volt := clampVolt x.core x.volt })
    (panelNodes k).foldl (fun s r => [portN, portE, portS, portW].foldl (fun s p =>
      if (s.router r).dead || !portLeads r p then s
      else
        match neighbour r p with
        | none => s.updPort r p (fun q => if q.linkHeld then q else freshPort q)
        | some q =>
          let other := (s.router q).port (oppPort p)
          if (s.router q).dead || other.linkHeld || ((s.router r).port p).linkHeld || (panelOf q != k && (s.panel (panelOf q)).state == 3) then s
          else (s.updPort r p freshPort).updPort q (oppPort p) freshPort) s) s

/-- A panel without supply (R433, R493, R633): its nodes and routers are gone, and its neighbours' and hems' links to it are down. -/
def dropPanel (s : State) (k : Nat) : State :=
  let ns := panelNodes k
  let s := s.updPanel k (fun x => { x with state := 4, throttledAt := none })
  let s := ns.foldl (fun s r => [portN, portE, portS, portW].foldl (fun s p =>
    let s := loseLink s r p
    match neighbour r p with | some q => if panelOf q = k then s else loseLink s q (oppPort p) | none => s) s) s
  let s := ns.foldl (fun s r => (s.updNode r (fun d => { d.discard with fenced := true })).updRouter r (fun x => { x with
    dead := true, ports := (List.range 5).foldl (fun t p => Table.put t p { x.port p with state := 0 }) x.ports })) s
  let s := { s with flight := s.flight.filter (fun q => q.out.isSome || panelOf q.at' != k) }
  { s with stw := { s.stw with
    stewardLost := s.stw.stewardLost || panelOf stewardNode == k, standbyLost := s.stw.standbyLost || panelOf standbyNode == k } }
/-- A panel loses its supply: the event is on its way to the steward (R399, R433). -/
def losePanel (s : State) (k : Nat) : State :=
  if (s.panel k).state = 4 then s
  else
    let n := (panelNodes k).headD 0
    let e : FaultEvent := { s.eventAt 5 0x00 n with panel := k }
    (dropPanel s k).note e false n false

/-- A hem has lost its supply (R633): all of its ports go down, mesh ports and its own. -/
def loseHem (s : State) (h : Nat) : State :=
  let s := match hemKind h with
    | .host => if h = 3 then { s with hemA := { s.hemA with dead := true, linkUp := false, role := 0 } } else { s with hemB := { s.hemB with dead := true, linkUp := false, role := 0 } }
    | .spakan => (List.range 48).foldl (fun s k => if (spakanHem k).1 = h then repin (s.updSp k (fun x => { x with state := 0, width := 0 })) k else s) s
    | _ => s
  (List.range 8).foldl (fun s j => let x := hemRouter h j; loseLink s x.1 x.2) s
/-- A branch's fuse opens and stays open (R633). -/
def openFuse (s : State) (b : Branch) : State :=
  if s.pow.fuses.contains b then s
  else
    let s := { s with pow := { s.pow with fuses := s.pow.fuses ++ [b] } }
    match b with | .panel k => losePanel s k | .hem h => loseHem s h
/-- BRANCH_FUSE_OPEN (R633, R635). -/
def execBranchFuseOpen (b : Branch) (s : State) : Res :=
  let ok := match b with | .panel k => decide (k < 42) | .hem h => decide (h < 26) && hemKind h != .blank
  if !ok then .fault .noSuchUnit
  else .next (if !s.pow.on || s.pow.fuses.contains b then s
    else openFuse (s.power 0x06 (match b with | .panel k => k | .hem h => 64 + h)) b)

/-- The power alarm (R650): every warden caps its core divider at once. -/
def raiseAlarm (s : State) : State :=
  let s := ({ s with pow := { s.pow with alarm := true } }).power 0x0E 0
  let deep := decide (connectorLimit s ≤ 12000)
  (List.range 42).foldl (fun s k => if 2 ≤ (s.panel k).state then s
    else settlePanel (s.updPanel k (fun x => { x with cap := max x.cap (if deep then 8 else slowerDiv x.core), alarmCap := true })) k) s
/-- A change that makes the effective limit fall raises the alarm (R650). -/
def limitChange (s : State) (f : State → State) : State :=
  let t := f s
  if limitActive t < limitActive s then raiseAlarm t else t

/-- Panel power of the dense load by divider (R648). -/
def denseLoad (d : Nat) : Nat := match d with | 4 => 620 | 5 => 430 | 6 => 340 | _ => 225
/-- A panel's power predicted at another core divider (R648). -/
def predict (x : Panel) (d : Nat) : Nat := x.power * denseLoad d / denseLoad x.core
/-- Panels in RUN or THROTTLE ordered by a key, lowest first, then by number. -/
def panelsBy (s : State) (key : Panel → Int × Int) (g : Panel → Bool) : List Nat :=
  let less (a b : Nat) : Bool :=
    let x := key (s.panel a)
    let y := key (s.panel b)
    decide (x.1 < y.1) || (x.1 == y.1 && (decide (x.2 < y.2) || (x.2 == y.2 && decide (a ≤ b))))
  ((List.range 42).filter (fun k => decide ((s.panel k).state < 2) && g (s.panel k))).mergeSort less
/-- Up to n panels capped one step slower until the predicted power is at or below the limit (R649). -/
def capPanels (limit : Nat) : Nat → List Nat → Nat → State → State
  | 0, _, _, s => s
  | _, [], _, s => s
  | n + 1, k :: t, power, s =>
    if power ≤ limit then s
    else
      let x := s.panel k
      let d := slowerDiv x.core
      capPanels limit n t (power + predict x d - x.power) (settlePanel (s.updPanel k (fun x => { x with cap := max x.cap d })) k)
/-- Caps of up to n panels lifted by a step while the predicted power stays within 98 % of the limit (R649, R650). The Bool is whether one was
left because it would not have. -/
def liftPanels (limit : Nat) : Nat → List Nat → Nat → State → State × Bool
  | 0, _, _, s => (s, false)
  | _, [], _, s => (s, false)
  | n + 1, k :: t, power, s =>
    let x := s.panel k
    let cap := easeReq s x.cap
    let d := max (gradeDivider s.brg.grade) (max x.thermal cap)
    let power' := power + predict x d - x.power
    if 98 * limit < 100 * power' then (s, true)
    else liftPanels limit n t power' (settlePanel (s.updPanel k (fun x => { x with cap := cap })) k)
/-- LIMITER_RUN (R648 to R650): `input` is the 10 ms average of input power and `branch` the panels' own; while an alarm cap stands, the prediction
is from the branches and the 1,600 W outside them. -/
def execLimiterRun (input : Nat) (branch : List (Nat × Nat)) (s : State) : Res :=
  if branch.any (fun b => decide (42 ≤ b.1)) then .fault .noSuchUnit
  else
    .next (
      if !s.pow.on || !stewardActs s then s
      else
        let s := branch.foldl (fun s b => s.updPanel b.1 (fun x => { x with power := b.2 })) s
        let limit := limitActive s
        let s := { s with pow := { s.pow with input := input, alarm := s.pow.alarm && decide (limit < input) } }
        let slow (x : Panel) : Int × Int := (-(x.core : Int), x.tempLogic)
        let fast (x : Panel) : Int × Int := ((x.core : Int), -x.tempLogic)
        if (List.range 42).any (fun k => (s.panel k).alarmCap) then
          let sum := (List.range 42).foldl (fun a k => a + (s.panel k).power) 1600
          if limit < sum then capPanels limit 4 (panelsBy s fast (fun x => decide (x.core < 8))) sum s
          else
            let r := liftPanels limit 4 (panelsBy s slow (fun x => x.alarmCap && x.cap != 4)) sum s
            let free (k : Nat) : Bool := r.2 || (r.1.panel k).cap == 4
            (List.range 42).foldl (fun s k => if free k then s.updPanel k (fun x => { x with alarmCap := false }) else s) r.1
        else if limit < input then
          capPanels limit 4 (panelsBy s fast (fun x => decide (x.core < 8))) input { s with pow := { s.pow with lowSince := none } }
        else if 100 * input ≤ 95 * limit then
          let since := s.pow.lowSince.getD s.clock
          let s := { s with pow := { s.pow with lowSince := some since } }
          if since + msCycles 10 ≤ s.clock then (liftPanels limit 4 (panelsBy s slow (fun x => x.cap != 4)) input s).1 else s
        else { s with pow := { s.pow with lowSince := none } })

/-- INPUT_POWER_OVERLOAD (R650): the 20 µs average of input power has passed 110 % of the effective limit. -/
def execInputPowerOverload (avg : Nat) (s : State) : Res := .next (if s.pow.on && decide (110 * limitActive s < 100 * avg) then raiseAlarm s else s)
/-- HANDOVER_ALARM_CAP_LIFT (R650): without a steward to run the limiter, a warden lifts its own cap by a step every 10 ms. -/
def execHandoverAlarmCapLift (panel : Nat) (s : State) : Res :=
  if 42 ≤ panel then .fault .noSuchUnit
  else .next (if stewardActs s || s.pow.alarm || !(s.panel panel).alarmCap then s
    else settlePanel (s.updPanel panel (fun x => let c := easeReq s x.cap; { x with cap := c, alarmCap := c != 4 })) panel)

/-- Refresh multiple of a DRAM reading (R646). -/
def refreshOf (dram : Int) : Nat := if dram ≤ 8500 then 1 else if dram ≤ 9500 then 2 else 4
/-- THERMAL_SENSOR_READ (R645, R646, R652): the hottest logic and DRAM sensors in 0.01 °C. -/
def execThermalSensorRead (panel : Nat) (logic dram : Int) (s : State) : Res :=
  if 42 ≤ panel then .fault .noSuchUnit
  else
    let x := s.panel panel
    let since (hot : Bool) (t : Option Nat) : Option Nat := if hot then some (t.getD s.clock) else none
    .next (
      if !s.pow.on || 3 ≤ x.state then s
      else
        let s := s.updPanel panel (fun x => { x with
          tempLogic := logic, tempDram := dram, refresh := refreshOf dram
          hotPark := since (decide (10300 ≤ logic)) x.hotPark, coolSince := since (decide (logic ≤ 9000)) x.coolSince })
        let x := s.panel panel
        let hot1 := match x.hotPark with | some t => decide (t + msCycles 1 ≤ s.clock) | none => false
        let cool (ms : Nat) : Bool := match x.coolSince with | some t => decide (t + msCycles ms ≤ s.clock) | none => false
        if 11000 ≤ logic then openFuse (s.power 0x0D panel) (.panel panel)
        else if x.state = 2 then
          if cool 100 && decide (dram < 10000) && x.request < 2 then unparkPanel s panel else s
        else if decide (10500 ≤ logic) || hot1 || decide (10000 ≤ dram) then parkPanel s panel
        else if 9500 ≤ logic then
          let deep := x.deep || (decide (10000 ≤ logic) && x.core == 8)
          let due := match x.hotStep with | some t => decide (t + msCycles 1 ≤ s.clock) | none => true
          settlePanel (s.updPanel panel (fun x => if due && decide (x.core < 8) then { x with thermal := slowerDiv x.core, hotStep := some s.clock, deep := deep } else { x with deep := deep })) panel
        else if cool 10 && x.deep then settlePanel (s.updPanel panel (fun x => { x with deep := false, coolSince := some s.clock })) panel
        else if cool 10 && x.thermal != 4 then settlePanel (s.updPanel panel (fun x => { x with thermal := easeReq s x.thermal, coolSince := some s.clock })) panel
        else s)
/-- THERMAL_COMPARATOR_PARK (R645): 105 °C, without the warden. -/
def execThermalComparatorPark (panel : Nat) (s : State) : Res := if 42 ≤ panel then .fault .noSuchUnit else .next (if s.pow.on then parkPanel s panel else s)
/-- VOLTAGE_LOOP (R644): 5 mV toward a slack of 2 to 4 units, within the divider's range. -/
def execVoltageLoop (panel slack : Nat) (s : State) : Res :=
  if 42 ≤ panel then .fault .noSuchUnit
  else .next (if !s.pow.on || 3 ≤ (s.panel panel).state then s
    else s.updPanel panel (fun x => { x with volt := clampVolt x.core (if slack < 2 then x.volt + 5 else if 4 < slack then x.volt - 5 else x.volt) }))
/-- COOLANT_INLET_HIGH (R635, R650, R656): above 35 °C it is logged and lowers the coolant limit. -/
def execCoolantInletHigh (inlet : Int) (s : State) : Res :=
  .next (if !s.pow.on then s
    else limitChange (if 3500 < inlet then s.power 0x0C 0 else s) (fun s => { s with pow := { s.pow with inlet := inlet } }))

/-- POWER_LIMIT (R530, R632, R650). -/
def setLimit (s : State) (v : Nat) : State × Nat :=
  if v < 3000 ∨ gradeEnvelope s.brg.grade < v then (s, 0x02000001) else (limitChange s (fun s => { s with pow := { s.pow with limit := some v } }), 0)
def execPowerLimit (h : ReqHdr) (v : U32) (s : State) : Res := onObject h 0xA000 0 s (fun s => answerOf s (setLimit s v.toNat) none)
/-- PANEL_REQUEST (R530, R645, R652, R654): a panel parks, goes DARK where nothing keeps it, or is to return once the thermal loop lets it. -/
def requestPanel (s : State) (k v : Nat) : State × Nat :=
  if !([0, 2, 3].contains v) then (s, 0x02000001)
  else
    let s := s.updPanel k (fun x => { x with request := v, darkReason := 0 })
    (if v = 3 then tryDark (parkPanel s k) k else let s := undark s k; if v = 2 then parkPanel s k else s, 0)
def execPanelRequest (h : ReqHdr) (panel : Nat) (v : Byte) (s : State) : Res :=
  onObject h 0xA011 (panel + 1) s (fun s => answerOf s (requestPanel s panel v.toNat) none)

end Sys2Proof.Machine
end

