-- ==== Sys2Proof/Machine/Supply.lean ====
section
/-! DEFINITION. Power enable, the input connectors, the reference clock, the service signals and the selvage loop, and what a power cycle keeps
(R458, R491, R523, R597, R629 to R637, R641, R660 to R666). -/

namespace Sys2Proof.Machine
open Sys2Proof

/-- What a Host hem keeps without power: its fuses and its flash (R458, R566, R592); its fundamental reset is pulled low (R660). -/
def HostHem.cold (h : HostHem) : HostHem :=
  { sealBreaks := h.sealBreaks, reseals := h.reseals, arb := h.arb, bank0 := h.bank0, bank1 := h.bank1, active := h.active }
/-- What bring-up keeps in flash and fuses (R491 to R493, R495). -/
def Bringup.cold (b : Bringup) : Bringup :=
  { grade := b.grade, mode := b.mode, accept := b.accept, fastSince := b.fastSince, mark := b.mark, stored := b.stored, lastFw := b.lastFw, config := b.config, kept := b.kept }
/-- The twin's objects that flash keeps (R491). -/
def TwinState.kept (t : TwinState) : TwinState := { domains := t.domains, expect := t.expect, timeout := t.timeout, addr := t.addr, record := t.record }

/-- The module without power (R458, R637): flash, fuses, the straps and switches of the tray, the commands on their way and what host memory
holds; everything else is as at power-on. -/
def unpowered (s : State) : State :=
  { ({} : State) with
    pending := s.pending, free := s.free, hostMem := s.hostMem
    stw := { d := { jumper := s.stw.d.jumper } }
    hemA := s.hemA.cold, hemB := s.hemB.cold
    sec := { loopOpen := s.sec.loopOpen }
    pow := { enJ1 := s.pow.enJ1, enJ2 := s.pow.enJ2, live := s.pow.live }
    brg := { s.brg.cold with kept := if s.pow.on ∧ 13 ≤ s.brg.phase then some s.twin.kept else s.brg.kept } }
/-- The module powers down (R637). -/
def powerDown (s : State) : State := if s.pow.on then unpowered s else s

/-- PWR_EN on J1 or J2 (R636, R660 to R662). -/
def setEnable (s : State) (conn : Nat) (v : Bool) : State :=
  { s with pow := if conn = 0 then { s.pow with enJ1 := v } else { s.pow with enJ2 := v } }
/-- The module starts: power enable is asserted and two connectors are live (R631, R636). -/
def powerUp (s : State) : State :=
  if s.pow.on || !(s.pow.enJ1 || s.pow.enJ2) || decide (liveCount s < 2) then s
  else { s with clock := 0, pow := { s.pow with on := true }, brg := { s.brg with phase := 1 } }
/-- PWR_EN_ASSERT (R636, R662). -/
def execPwrEnAssert (conn : Nat) (s : State) : Res := if 2 ≤ conn then .fault .noSuchUnit else .next (powerUp (setEnable s conn true))
/-- PWR_EN_DEASSERT (R637, R662): the module powers down once neither connector asserts it. -/
def execPwrEnDeassert (conn : Nat) (s : State) : Res :=
  if 2 ≤ conn then .fault .noSuchUnit
  else
    let s := setEnable s conn false
    .next (if s.pow.enJ1 || s.pow.enJ2 then s else powerDown s)
/-- PWR_EN_MISMATCH (R662): the two have differed for 10 ms. -/
def execPwrEnMismatch (s : State) : Res := .next (if s.pow.on && s.pow.enJ1 != s.pow.enJ2 then s.power 0x0F 0 else s)

/-- A connector that is lost (R629 to R631, R635, R650): its event and that of a bus lost with it; the limit falls, and with fewer than two live
the module powers down. -/
def loseConnector (s : State) (c code : Nat) : State :=
  if !nth false s.pow.live c then s
  else
    let s1 := limitChange s (fun s =>
      let s := { s with pow := { s.pow with live := setNth s.pow.live c false } }
      if !s.pow.on then s
      else
        let s := s.power code (c + 1)
        let b := c / 2
        if nth false s.pow.live (2 * b) || nth false s.pow.live (2 * b + 1) then s else s.power (b + 1) 0)
    if s.pow.on then (if liveCount s1 < 2 then powerDown s1 else s1) else { s with pow := { s.pow with live := setNth s.pow.live c false } }
/-- CONNECTOR_UNDERVOLTAGE (R630): below 46 V for 1 ms. -/
def execConnectorUndervoltage (c : Nat) (s : State) : Res := if 4 ≤ c then .fault .noSuchUnit else .next (loseConnector s c 0x05)
/-- CONNECTOR_OVERVOLTAGE (R630): above 60 V. -/
def execConnectorOvervoltage (c : Nat) (s : State) : Res := if 4 ≤ c then .fault .noSuchUnit else .next (loseConnector s c 0x04)
/-- CONNECTOR_REVERSED (R630). -/
def execConnectorReversed (c : Nat) (s : State) : Res := if 4 ≤ c then .fault .noSuchUnit else .next (loseConnector s c 0x03)
/-- CONNECTOR_REQUALIFIED (R630): 46 to 58 V for 100 ms; with power enable asserted a module that was down starts. -/
def execConnectorRequalified (c : Nat) (s : State) : Res :=
  if 4 ≤ c then .fault .noSuchUnit else .next (powerUp { s with pow := { s.pow with live := setNth s.pow.live c true } })
/-- SENSE_PAIR_FAULT (R634, R635). -/
def execSensePairFault (c : Nat) (shorted : Bool) (s : State) : Res :=
  if 4 ≤ c then .fault .noSuchUnit
  else .next (if !s.pow.on then s else ({ s with pow := { s.pow with senseFallback := true } }).power (if shorted then 0x08 else 0x07) (c + 1))

/-- REFCLOCK_LOST (R641, R667): in service the fault map goes to flash and a power cycle is asked for. -/
def execRefclockLost (s : State) : Res :=
  .next (
    if !s.pow.on || !s.pow.refclk then s
    else
      let s := ({ s with pow := { s.pow with refclk := false } }).power 0x0A 0
      let s := s.updFaults (fun q => { q with dirty := false, stored := q.gen })
      let s := { s with brg := { s.brg with stored := some { (s.brg.stored.getD {}) with map := s.stw.f.map } } }
      assertCycle s (s.stw.standbyActs || s.stw.stewardLost))

/-- TACK_PRESS (R523, R663): a press opens or restarts the 120 s window. -/
def execTackPress (conn : Nat) (s : State) : Res :=
  if 2 ≤ conn then .fault .noSuchUnit else .next (if s.pow.on then s.updDict (fun d => { d with tackUntil := s.clock + msCycles 120000 }) else s)
/-- TACK_HELD (R663). -/
def execTackHeld (conn : Nat) (s : State) : Res := if 2 ≤ conn then .fault .noSuchUnit else .next (if s.pow.on then s.power 0x10 0 else s)
/-- TACK_WINDOW_EXPIRY (R523). -/
def execTackWindowExpiry (s : State) : Res := .next (s.updDict (fun d => { d with tackUntil := 0 }))
/-- SERVICE_JUMPER (R523, R663). -/
def execServiceJumper (fitted : Bool) (s : State) : Res := .next (s.updDict (fun d => { d with jumper := fitted }))

/-- SELVAGE_MEASURE (R666): below 100 Ω closed, above 1 kΩ or shorted to ground open, between them as before. -/
def execSelvageMeasure (ohms : Nat) (toGround : Bool) (s : State) : Res :=
  .next (if !s.pow.on then s
    else { s with sec := { s.sec with loopOpen := if toGround ∨ 1000 < ohms then true else if ohms < 100 then false else s.sec.loopOpen } })
/-- A SEAL_BREAKS fuse of a hem, at most one per power-up (R566, R597). -/
def HostHem.blowSeal (h : HostHem) : HostHem := if h.blown || h.dead || decide (32 ≤ h.sealBreaks) then h else { h with sealBreaks := h.sealBreaks + 1, blown := true }
/-- SELVAGE_BREAK (R597): the loop has been open for 1 ms, or is open at power-up. -/
def execSelvageBreak (s : State) : Res := .next (if s.pow.on && s.sec.loopOpen then { s with hemA := s.hemA.blowSeal, hemB := s.hemB.blowSeal } else s)

/-- T1S_POLARITY_REVERSED (R635). -/
def execT1sPolarityReversed (hem : Nat) (s : State) : Res :=
  if !isHostHem hem then .fault .noSuchUnit
  else .next (if !s.pow.on || (hostAt s hem).dead || (hostAt s hem).polarity then s
    else (updHost s hem (fun h => { h with polarity := true })).power 0x0B (64 + hem))

/-- STAT[3:0] of a Host hem (R465, R467, R665): 0 unpowered or in phases 1 and 2, 0x8 + boot code where its C node stopped in ROM, 0xF in phases 3
and 4, else the module state. -/
def statLines (s : State) (h : HostHem) : Nat :=
  if !s.pow.on || h.dead || decide (s.brg.phase < 3) then 0
  else match h.bootCode with
    | some c => 8 + c
    | none => if s.brg.phase < 5 then 0xF else s.stw.mstate.code

end Sys2Proof.Machine
end

