-- ==== Sys2Proof/Machine/Security.lean ====
section
/-! DEFINITION. Tenant keys and the walker, attestation, debug classes, firmware update and the re-seal record (R564 to R598). -/

namespace Sys2Proof.Machine
open Sys2Proof

/-- KEX_DIGEST (R569): none of a partition without a pair. -/
def kexDigest (k : Keys) : List Byte := if k.kexPublic.isEmpty then [] else sha384 k.kexPublic
/-- The wrap key of a delivery (R570): none where ECDH_PUB is no point of the curve, which the key agreement answers by giving nothing (log 5). -/
def wrapKey (k : Keys) (p : Nat) (payload : List Byte) : Option (List Byte) :=
  let shared := Config.keyAgree (k.kexPublic ++ (payload.drop 52).take 1665)
  if shared.length ≠ 80 then none
  else some (hkdf384 (kexDigest k) shared (asciiBytes "BOLYDOR-KEYWRAP" ++ leBytes 1 p ++ serialText) 32)
/-- The bundle of a delivery, if it opens (R570, R571). -/
def openBundle (k : Keys) (p : Nat) (payload : List Byte) : Option (List Byte) :=
  if (kexDigest k).isEmpty ∨ (payload.drop 4).take 48 ≠ kexDigest k then none
  else (wrapKey k p payload).elim none (fun w => gcmOpen w ((payload.drop 1717).take 12) (payload.take 52) ((payload.drop 1729).take 64) ((payload.drop 1793).take 16))
/-- KCV of a master (R572). -/
def kcvOf (master : List Byte) : List Byte := hkdf384 [] master (asciiBytes "KCV") 8
/-- Keys after a delivery of a bundle (R571 to R574, R581); `fresh` is the new DELIVERY_ID. -/
def deliveredKeys (k : Keys) (b fresh : List Byte) : Keys :=
  let master := b.take 32
  { k with
    installed := true, master := master, seed := BitVec.ofNat 64 (leNat ((b.drop 32).take 8)), deliveryId := fresh, starts := 0, rewinds := 0
    epoch := if k.holdsMemory then k.epoch else leNat ((b.drop 40).take 2)
    kcv := kcvOf master, walking := k.holdsMemory && k.walking, holdsMemory := true, blobSeq := 0 }
/-- A partition that waited for its keys goes on (R574). -/
def goOnWithKeys (s : State) (p : Nat) : State :=
  let x := s.part p
  if x.state ≠ .loading ∨ x.reason ≠ 0x0B then s
  else if x.resetFor = some 2 then reloadPaused (s.updPart p (fun x => { x with seedUsed := x.keys.seed })) p [] 0x02
  else distribute (setPart s p .loading (some 0x00)) p
/-- General pages mapped before the first delivery take its epoch (R266, R574). -/
def pttEpochs (s : State) (p e : Nat) : State :=
  s.updPart p (fun x => { x with pl := { x.pl with ptt := Table.mapVals (fun _ (w : U64) => if pttBolt w then w else setFld w 36 21 e) x.pl.ptt } })
/-- KEY_DELIVER's effect (R570 to R574). -/
def deliverKeys (s : State) (p : Nat) (payload : List Byte) : State × Nat :=
  let k := (s.part p).keys
  if payload.length ≠ 1809 then (s, 0x02000002)
  else if leNat (payload.take 2) ≠ 1 then (s, 0x02000001)
  else if !(s.cfg p).prot ∨ k.installed then (s, 0x03000001)
  else match openBundle k p payload with
    | none => (s, 0x05000003)
    | some b =>
      if k.holdsMemory ∧ kcvOf (b.take 32) ≠ k.kcv then (s, 0x05000003)
      else
        let f := s.takeFree
        let s := f.2.updPart p (fun x => { x with keys := deliveredKeys x.keys b (leBytes 32 (Config.free f.1)) })
        let s := if k.holdsMemory then s else pttEpochs s p (s.part p).keys.epoch
        (goOnWithKeys (installKeys (freshKex s p) p) p, 0)
/-- KEY_DELIVER (R570 to R574). -/
def execKeyDeliver (h : ReqHdr) (p : Nat) (payload : List Byte) (s : State) : Res :=
  if 16 ≤ p then .fault .noSuchUnit else onObject h 0x7011 (p + 1) s (fun s => answerOf s (deliverKeys s p payload) none)

/-- KEY_ROTATE's effect (R575). -/
def rotateOrder (s : State) (p v : Nat) : State × Nat :=
  if v ≠ 1 then (s, 0x02000001)
  else if (s.part p).keys.walking ∧ (s.part p).keys.installed then (s, 0x03000003)
  else if !mayRotate s p then (s, 0x03000001)
  else (rotateKeys s p, 0)
/-- KEY_ROTATE (R500, R575): EXECUTE answers when the walker is done. -/
def execKeyRotate (h : ReqHdr) (p : Nat) (v : Byte) (s : State) : Res :=
  if 16 ≤ p then .fault .noSuchUnit else onObject h 0x7012 (p + 1) s (fun s => answerOf s (rotateOrder s p v.toNat) (some (32 + p, [])))

/-- The walker may not read a page (R576, R578): poisoned, of an epoch that no key slot holds, or already found failing. -/
def walkStuck (s : State) (p : Nat) : WalkPage → Bool
  | .frame l e i =>
    let x := ple s l (s.bobbin l e) i
    linPoisoned s (frameAddr l (pleFrame x)) 65536 || ((s.ln l).key (pleEpoch x)).isNone
  | .general page =>
    let e := Table.get 0 (s.part p).pl.ptt page
    (pageGranules s p e).any (fun a => linPoisoned s a 4096 || ((s.ln (a / 0x200000000)).key (pttEpoch e)).isNone)
  | .bolt u => (s.part p).keys.walkBad.contains u
/-- A frame encrypted anew, with the extra frames of its page (R310, R576). -/
def moveFrame (s : State) (l e i target : Nat) : State :=
  let b := s.bobbin l e
  let x := ple s l b i
  let frames := pleFrame x :: ((s.ln l).sealedPages.filter (fun q => q.entry == e && q.page == i)).map (·.frame)
  let s := frames.foldl (fun s f => let r := frameRead s l f (pleEpoch x) 0 65536; frameWrite r.s l f target 0 r.data) s
  setPle s l b i (setFld x 67 52 target)
/-- A general Lining page encrypted anew, every member's share of it (R576). -/
def moveGeneral (s : State) (p page target : Nat) : State :=
  let e := Table.get 0 (s.part p).pl.ptt page
  let s := (pageGranules s p e).foldl (fun s a =>
    let x := s.ln (a / 0x200000000)
    linWrite s (x.key target) a (linRead s (x.key (pttEpoch e)) a 4096)) s
  s.updPart p (fun x => { x with pl := { x.pl with ptt := Table.put x.pl.ptt page (setFld e 36 21 target) } })
/-- A Bolt page read and written by the L node of its position, its counter starting again at 1; one that fails its tags stays (R576, R578). -/
def moveBolt (s : State) (p u : Nat) : State :=
  let ls := (s.cfg p).lnodes
  let l := nth 0 ls (u % ls.length)
  match xlate s p (0x20000000000 + 4096 * u) false with
  | .bolt o v _ =>
    let r := boltPageRead s l true v o
    if r.2.2 then r.1.updPart p (fun x => { x with keys := { x.keys with walkBad := setIns x.keys.walkBad u } })
    else (boltPageWrite r.1 l true v o r.2.1).getD r.1
  | _ => s
/-- Bobbins of a partition that keep a page in a unit of its Bolt. -/
def boltBobbins (s : State) (p u : Nat) : List (Nat × Nat) :=
  ((s.cfg p).lnodes).flatMap (fun l => ((s.ln l).bobbins.filter (fun eb => eb.2.state != 0 && eb.2.part == p &&
    (List.range eb.2.listCap).any (fun i =>
      let y := ple s l eb.2 i
      pleValid y && pleBslot y != 0 && decide (pleBslot y ≤ u ∧ u < pleBslot y + eb.2.slotUnits)))).map (fun eb => (l, eb.1)))
/-- The walk has ended (R578, R579): pages still at the old epoch are lost or stop the partition, and the previous slot is zeroed. -/
def endWalk (s : State) (p : Nat) : State :=
  let left := walkPages s p
  let own (w : WalkPage) : List (Nat × Nat) := match w with | .frame l e _ => [(l, e)] | .bolt u => boltBobbins s p u | .general _ => []
  let s := (left.flatMap own).foldl (fun s x => loseBobbin s x.1 x.2) s
  let s := if left.any (fun w => (own w).isEmpty) then failPart s p 0x05 else s
  let t := (s.part p).keys.walkTarget
  let s := ((s.cfg p).lnodes).foldl (fun s l => s.updLn l (fun x => { x with
    keyPrev := none, bobbins := Table.mapVals (fun _ b => if Bobbin.part b = p ∧ Bobbin.state b ≠ 0 then { b with keyEpoch := t } else b) x.bobbins })) s
  let held := (s.part p).keys.wrapHeld
  let s := answerAwaits (s.updPart p (fun x => { x with keys := { x.keys with walking := false, walkBad := [], wrapHeld := false } })) (32 + p) 0
  if held && mayRotate s p then rotateKeys s p else s
/-- WALKER_PAGE_MOVE (R576 to R579): the walker's next page; with none left that it may read, the walk ends. -/
def execWalkerPageMove (p : Nat) (s : State) : Res :=
  if 16 ≤ p then .fault .noSuchUnit
  else
    .next (
      let k := (s.part p).keys
      if !k.walking || !k.installed then s
      else match (walkPages s p).find? (fun w => !walkStuck s p w) with
        | some (.frame l e i) => moveFrame s l e i k.walkTarget
        | some (.general page) => moveGeneral s p page k.walkTarget
        | some (.bolt u) => moveBolt s p u
        | none => endWalk s p)

/-- A text cut or filled with zeros to n bytes. -/
def sized (n : Nat) (l : List Byte) : List Byte := (l ++ List.replicate n 0).take n
/-- Digest of the firmware that the acting steward runs, and of the other's (R585). -/
def signerB (s : State) : Bool := s.stw.standbyActs || s.stw.stewardLost
def fwRunning (s : State) : List Byte := if signerB s then s.sec.fwStandby else s.sec.fwSteward
def fwOther (s : State) : List Byte := if signerB s then s.sec.fwSteward else s.sec.fwStandby
/-- The two stewards run different firmware (R587). -/
def fwMixed (s : State) : Bool := !s.stw.stewardLost && !s.stw.standbyLost && s.sec.fwSteward != s.sec.fwStandby
/-- FLAGS of a report (R587). -/
def reportFlags (s : State) : Nat :=
  let some' (f : Partition → PartCfg → Bool) : Bool := (List.range 16).any (fun p => f (s.part p) (s.cfg p))
  b2n s.sec.staged.isSome + 2 * b2n (some' (fun x _ => x.state == .draining || x.state == .resetting)) + 4 * b2n (s.sec.debugCls.any (fun e => e.2 != 0)) +
    8 * b2n (sealLatched s) + 16 * b2n (some' (fun x c => c.prot && x.state == .loading && x.reason == 0x0B)) +
    32 * b2n (fwMixed s)
/-- FUSE_STATE (R585). -/
def fuseState (s : State) : U32 :=
  let h := sealHem s
  mkWord 32 [(0, h.arb), (8, h.sealBreaks), (14, h.reseals), (20, b2n (sealLatched s)), (21, b2n Config.prodLock), (22, s.brg.grade + 1), (26, b2n s.sec.arbHold)]
/-- A partition's entry of the body (R585). -/
def reportPart (s : State) (p : Nat) : List Byte :=
  let c := s.cfg p
  let x := s.part p
  leBytes 21 c.clusters.toNat ++ [c.domain] ++ leBytes 1 (partCode s p) ++ leBytes 1 (b2n x.keys.installed + 2 * b2n (x.state == .draining || x.state == .resetting))
/-- A format 2 record (R586, R587). -/
def reportRecord (s : State) (p : Nat) : List Byte :=
  let x := s.part p
  let busy := x.state == .draining || x.state == .resetting
  let leaves := x.keys.leaves.foldl (fun (l : List (Nat × Nat × List Byte)) e => l.filter (fun y => decide (y.1 < e.1)) ++ e :: l.filter (fun y => decide (e.1 ≤ y.1))) []
  leBytes 1 p ++ leBytes 1 (b2n x.keys.installed + 2 * b2n (!busy) + 4 * b2n (s.fn (p + 1)).ide) ++ leBytes 2 x.keys.epoch ++ leBytes 4 x.committed.toNat ++
    leBytes 4 s.stw.d.gen ++ leBytes 4 0 ++ sized 48 x.pl.digest ++
    (if leaves.isEmpty then List.replicate 48 0 else sha384 (leaves.flatMap (fun l => l.2.2))) ++ sized 48 (kexDigest x.keys)
/-- Partitions that a format 2 request asks for (R584, R586). -/
def reportParts (s : State) (mask : Nat) : List Nat := (List.range 16).filter (fun p => (s.cfg p).defined && (mask == 0 || mask.testBit p))
/-- The body of a report (R585, R586). -/
def reportBody (s : State) (format mask : Nat) (nonce : List Byte) : List Byte :=
  let ps := reportParts s mask
  let len := if format = 1 then 644 else 648 + 160 * ps.length
  let staged := match s.sec.staged with | some d => d | none => if fwMixed s then fwOther s else []
  let debug := (List.range 168).foldl (fun a c => a + Table.get 0 s.sec.debugCls c % 4 * 4 ^ c) 0
  leBytes 2 format ++ leBytes 2 (reportFlags s) ++ leBytes 4 len ++ nonce ++ serialText ++ [0xB0] ++ leBytes 1 s.stw.mstate.code ++ leBytes 1 (s.brg.grade + 1) ++ [0] ++
    sized 48 Config.romDigest ++ sized 48 (fwRunning s) ++ sized 48 staged ++ leBytes 4 s.sec.fwVersion ++ leBytes 4 (fuseState s).toNat ++ leBytes 42 debug ++
    List.replicate 6 0 ++ (List.range 16).flatMap (reportPart s) ++
    (if format = 1 then [] else leBytes 1 ps.length ++ [0, 0, 0] ++ ps.flatMap (reportRecord s))
/-- A report (R588): the body and its two signatures under the alias keys, which are outside the model (log 5). -/
def report (s : State) (format mask : Nat) (nonce : List Byte) : List Byte :=
  let body := reportBody s format mask nonce
  body ++ sized 384 (Config.sign (1 :: body)) ++ sized 7856 (Config.sign (2 :: body))
/-- ATTEST's effect (R583, R584): by EXECUTE the report is answered as a DOMAIN. -/
def attest (s : State) (h : ReqHdr) (payload : List Byte) : Ans :=
  let format := leNat (payload.take 1)
  if payload.length ≠ 40 then refuse s 0x02000002
  else if format ≠ 1 ∧ format ≠ 2 then refuse s 0x02000001
  else if !h.execute then done s
  else readDomain s s h.who 5 0x7000 0 (report s format (leNat ((payload.drop 4).take 2)) ((payload.drop 8).take 32)) none
/-- ATTEST (R583 to R588). -/
def execAttest (h : ReqHdr) (payload : List Byte) (s : State) : Res := onObject h 0x7000 0 s (fun s => attest s h payload)

/-- A node as class D2 clears it (R590 items 2 to 5): fenced, its key registers, registers, accumulators and finished tiles zero, and its protected
banks overwritten and unassigned. -/
def clearForScan (n : NodeId) (d : Node) : Node :=
  let prot := (List.range (padBytes n / 0x100000)).filter (fun b => bit (d.pad.owner b) 16 && bit (d.pad.owner b) 15)
  let pad := { d.pad with
    owners := d.pad.owners.filter (fun e => !prot.contains e.1)
    valid := d.pad.valid.filter (fun l => !prot.contains (l / 16384))
    bad := d.pad.bad.filter (fun w => !prot.contains (w / 262144))
    filled := prot.foldl (fun t b => setBits t (256 * b) 256 false) d.pad.filled
    blocks := d.pad.blocks.filter (fun x => !prot.contains (bankOf (if x.1 < 49152 then unitAddr 0 x.1 else unitAddr 1 (x.1 - 49152))))
    bytes := prot.foldl (fun (m : Memory) b => m.zero (0x100000 * b) 0x100000) d.pad.bytes }
  { d with
    resetting := true, halted := true
    core := { d.core with seed := 0, tiles := [], scalars := [], preds := [] }
    mc := { d.mc with groups := Table.mapVals (fun _ (g : Group) => { g with acc := [] }) d.mc.groups, drains := [], ftqUsed := 0, maskUsed := 0 }
    ln := { d.ln with keyCur := none, keyPrev := none }
    pad := pad }
/-- A protected partition whose cluster goes to D2 (R454, R590 item 1): reset at once, its keys destroyed, FAULTED with reason DEBUG. One that is
being unloaded goes on to EMPTY. -/
def debugReset (s : State) (p : Nat) : State :=
  let x := s.part p
  let drop (s : State) : State := s.updPart p (fun x => { x with keys := { x.keys with installed := false, master := [], seed := 0 } })
  if x.state = .empty then s
  else if x.resetFor = some 4 then drop s
  else
    let s := resetRegion (setPart (beginReset s p 3) p .resetting none) p
    setPart (drop (s.updPart p (fun x => { x with resetFor := none }))) p .faulted (some 0x0E)
/-- DEBUG_CLASS written (R524, R589 to R591). -/
def setDebugClass (s : State) (c v : Nat) : State × Nat :=
  let cur := Table.get 0 s.sec.debugCls c
  let put (s : State) : State := { s with sec := { s.sec with debugCls := Table.put s.sec.debugCls c v } }
  if 168 ≤ c ∨ 2 < v then (s, 0x02000001)
  else if cur < v ∧ sealLatched s then (s, 0x05000002)
  else if v = 2 ∧ cur < 2 then
    let s := ((List.range 16).filter (fun p => (s.cfg p).prot && (s.cfg p).clusters.getLsbD c)).foldl debugReset s
    (put ((clusterNodes c).foldl (fun s n => s.updNode n (clearForScan n)) s), 0)
  else if v < 2 ∧ cur = 2 then
    let r := resetCluster s c
    if r.2 = 0 then (put r.1, 0) else (s, r.2)
  else (put s, 0)
/-- DEBUG_CLASS_RAISE (R524, R589, R590). -/
def execDebugClassRaise (h : ReqHdr) (c : Nat) (v : Byte) (s : State) : Res :=
  if 168 ≤ c then .fault .noSuchUnit else onObject h 0x7020 (c + 1) s (fun s => answerOf s (setDebugClass s c v.toNat) none)
/-- DEBUG_CLASS_LOWER (R589, R591). -/
def execDebugClassLower (h : ReqHdr) (c : Nat) (v : Byte) (s : State) : Res :=
  if 168 ≤ c then .fault .noSuchUnit else onObject h 0x7020 (c + 1) s (fun s => answerOf s (setDebugClass s c v.toNat) none)

/-- RESEAL's effect (R524, R598). -/
def resealWith (s : State) (r : List Byte) : State × Nat :=
  let v := (sealHem s).sealBreaks
  if !Config.signatureOk r ∨ Config.resealSerial r ≠ Config.serial ∨ Config.resealBreaks r ≠ v then (s, 0x05000003)
  else if s.sec.loopOpen then (s, 0x03000001)
  else
    let up (h : HostHem) : HostHem := { h with reseals := max h.reseals v }
    ({ s with hemA := up s.hemA, hemB := up s.hemB }, 0)
/-- RESEAL (R598). -/
def execReseal (h : ReqHdr) (payload : List Byte) (s : State) : Res := onObject h 0x7030 0 s (fun s => answerOf s (resealWith s payload) none)

/-- A bank image written into the bank that is not active. -/
def HostHem.writeBank (h : HostHem) (b : List Byte) : HostHem := if h.active = 1 then { h with bank0 := b } else { h with bank1 := b }
/-- FW_STATUS of a refused update: failed, with the abort code's class and detail (R599). -/
def fwFailed (s : State) (code : Nat) : Ans :=
  refuse { s with sec := { s.sec with fwStatus := BitVec.ofNat 32 ((code / 2 ^ 24 * 256 + code % 256) * 65536 + 4) } } code
/-- FW_UPDATE's effect (R592, R593). -/
def updateFirmware (s : State) (b : List Byte) (wroteA wroteB : Bool) : Ans :=
  if !bankSound b then fwFailed s 0x05000003
  else if bankSvn b < (sealHem s).arb then fwFailed s 0x02000001
  else if bankVersion b < s.sec.fwVersion ∧ !s.sec.downgrade then fwFailed s 0x05000001
  else
    let s := if wroteA then { s with hemA := s.hemA.writeBank b } else s
    let s := if wroteB then { s with hemB := s.hemB.writeBank b } else s
    if !(wroteA && wroteB) then fwFailed s 0x06000001
    else done { s with sec := { s.sec with staged := some (bankDigest b), fwStatus := 2, downgrade := false } }
/-- FW_UPDATE (R593). -/
def execFwUpdate (h : ReqHdr) (bank : List Byte) (wroteA : Bool) (wroteB : Bool) (s : State) : Res := onObject h 0x7040 0 s (fun s => updateFirmware s bank wroteA wroteB)

/-- The selector sectors name the other bank (R592, R594). -/
def switchBanks (s : State) : State :=
  { s with hemA := { s.hemA with active := 1 - s.hemA.active }, hemB := { s.hemB with active := 1 - s.hemB.active } }
/-- The bank that a hem's selector names. -/
def HostHem.activeBank (h : HostHem) : List Byte := if h.active = 1 then h.bank1 else h.bank0
/-- FW_ACTIVATE 0x01's effect (R594 to R596): a new image that does not run leaves both stewards on the old one, and FW_STATUS says so with a
failure code the spec leaves open (log 1). -/
def activateInPlace (s : State) (runsNew : Bool) : Ans :=
  let old := (sealHem s).activeBank
  if s.sec.staged.isNone then refuse s 0x03000001
  else
    let t := switchBanks s
    let new := (sealHem t).activeBank
    if bankJournal new ≠ bankJournal old then refuse s 0x03000001
    else if runsNew then done (runFirmware t new)
    else
      let f := t.takeFree
      done { f.2 with sec := { f.2.sec with staged := none, fwStatus := BitVec.ofNat 32 (Config.free f.1 % 65536 * 65536 + 4) } }
/-- FW_ACTIVATE_IN_PLACE (R594, R595). -/
def execFwActivateInPlace (h : ReqHdr) (runsNew : Bool) (s : State) : Res := onObject h 0x7041 0 s (fun s => activateInPlace s runsNew)
/-- FW_ACTIVATE 0x02's effect (R456, R594). -/
def activateByReset (s : State) : State × Nat :=
  if s.sec.staged.isNone then (s, 0x03000001) else (orderModuleReset (switchBanks s), 0)
/-- FW_ACTIVATE_BY_RESET (R594): EXECUTE answers when the module reset is done. -/
def execFwActivateByReset (h : ReqHdr) (s : State) : Res :=
  onObject h 0x7041 0 s (fun s =>
    let r := activateByReset s
    answerOf s r (if r.1.stw.moduleReset.isSome then some (16, []) else none))

end Sys2Proof.Machine
end

