-- ==== Sys2Proof/Machine/Startup.lean ====
section
/-! DEFINITION. Bring-up, its tests, the fault map it builds and what it restores (R464 to R495), and the service test (R485, R486, R530). -/

namespace Sys2Proof.Machine
open Sys2Proof

/-- A phase's work, done while it is the phase running (R464). -/
def inPhase (n : Nat) (s : State) (f : State → State) : Res := .next (if s.pow.on && s.brg.phase == n then f s else s)
def State.toPhase (s : State) (n : Nat) : State := { s with brg := { s.brg with phase := n } }

/-- A node has failed a bring-up test already. -/
def hasFailed (s : State) (n : NodeId) : Bool := s.brg.fails.any (fun e => e.1 == n)
/-- A node that bring-up still tests: supplied, its router sound, nothing failed (R475, R493). -/
def underTest (s : State) (n : NodeId) : Bool := nodeExists n && (s.panel (panelOf n)).state != 4 && !(s.router n).dead && !hasFailed s n
/-- Nodes found DEFECT with a code (R471 to R484): only those still under test, of the kinds tested. -/
def failNodes (s : State) (kinds : List Kind) (code : Nat) (ns : List NodeId) : State :=
  ns.foldl (fun s n =>
    if underTest s n && kinds.contains (kindOf n) then
      ({ s with brg := { s.brg with fails := s.brg.fails ++ [(n, code)] } } : State).updNode n (fun d => { d.discard with fenced := true })
    else s) s
def failedWith (s : State) (codes : List Nat) : Nat := (s.brg.fails.filter (fun e => codes.contains e.2)).length
def testedNow (s : State) (kinds : List Kind) : Nat := (allNodes.filter (fun n => kinds.contains (kindOf n) && underTest s n)).length

/-- COVERAGE of a test where the table gives one number (R485), in 0.01 %. -/
def coverageOf (test : Nat) : Option Nat := match test with | 4 => some 9800 | 6 => some 10000 | 7 => some 10000 | 8 => some 9900 | _ => none
/-- A report record (R485, R486); what the spec does not state is open (log 1). -/
def testRecord (s : State) (test tested failed : Nat) : State × TestRecord :=
  let f := s.takeFree
  let g := f.2.takeFree
  (g.2, ⟨test, s.brg.full, (coverageOf test).getD (Config.free f.1 % 65536), Config.free g.1 % 2 ^ 32, tested, failed⟩)
/-- A record put into BRINGUP_REPORT, in table order (R486, R495). -/
def addRecord (s : State) (test tested failed : Nat) : State :=
  let r := testRecord s test tested failed
  let l := r.1.brg.report
  { r.1 with brg := { r.1.brg with report := l.filter (fun e => decide (e.test < test)) ++ r.2 :: l.filter (fun e => decide (test < e.test)) } }

/-- BRINGUP_PHASE_1 (R464, R633, R636, R641): without a reference clock the module stays and reports it; else every panel but those whose supply
fails runs at the part's highest clock. -/
def execBringupPhase1 (refclk : Bool) (badPanels : List Nat) (s : State) : Res :=
  if badPanels.any (fun k => decide (42 ≤ k)) then .fault .noSuchUnit
  else inPhase 1 s (fun s =>
    if !refclk then s.power 0x09 0
    else
      let d := gradeDivider s.brg.grade
      let s := { s with pow := { s.pow with refclk := true } }
      let s := (List.range 42).foldl (fun s k => s.updPanel k (fun x => { x with state := 0, core := d, fabric := 8, volt := clampVolt d x.volt })) s
      (badPanels.foldl dropPanel s).toPhase 2)

/-- Both ends of a link. -/
def linkEnds (r : NodeId) (p : Nat) : List (NodeId × Nat) := (r, p) :: (match neighbour r p with | some q => [(q, oppPort p)] | none => [])
/-- A link that bring-up holds (R407, R476). -/
def holdBad (s : State) (r : NodeId) (p : Nat) : State :=
  let s := (linkEnds r p).foldl (fun s e => s.updPort e.1 e.2 (fun q => { q with linkHeld := true, state := 0 })) s
  { s with brg := { s.brg with badLinks := s.brg.badLinks ++ [(r, p)] } }
/-- A router's mesh ports trained (R397, R464): a port that leads nowhere is TERMINATED, one to a dead router stays DOWN. -/
def trainPorts (s : State) (r : NodeId) : State :=
  [portN, portE, portS, portW].foldl (fun s p =>
    if !portLeads r p then s.updPort r p (fun q => { q with state := 2 })
    else if (linkEnds r p).any (fun e => (s.router e.1).dead) then s
    else s.updPort r p freshPort) s
/-- BRINGUP_PHASE_2 (R464, R470): mesh and hem links trained, and those that fail held. -/
def execBringupPhase2 (badLinks : List (NodeId × Nat)) (s : State) : Res :=
  if badLinks.any (fun e => !linkOk e.1 e.2) then .fault .noSuchUnit
  else inPhase 2 s (fun s =>
    let s := allNodes.foldl trainPorts s
    let s := badLinks.foldl (fun s e => holdBad s e.1 e.2) s
    (remapHost (remapHost s 3) 10).toPhase 3)

/-- The bank that a hem's ROM accepts (R466). -/
def acceptedBank (h : HostHem) (r : BootRead) : Option (List Byte) :=
  let ok (b : List Byte) (x : BankRead) : Bool := x.readable && x.rsaOk && x.slhOk && decide (h.arb ≤ bankSvn b)
  let banks := [(h.bank0, r.bank0), (h.bank1, r.bank1)]
  if !r.romOk then none else (((if h.active = 1 then banks.reverse else banks).find? (fun x => ok x.1 x.2)).map (·.1))
/-- The boot code of a ROM that accepts neither bank (R467); where the two fail differently the spec names none, and it is open (log 1). -/
def bootCodeOf (h : HostHem) (r : BootRead) (fresh : Nat) : Nat :=
  let sig (x : BankRead) : Bool := x.readable && !(x.rsaOk && x.slhOk)
  let below (b : List Byte) (x : BankRead) : Bool := x.readable && x.rsaOk && x.slhOk && decide (bankSvn b < h.arb)
  if !r.romOk then 4
  else if !r.bank0.readable && !r.bank1.readable then 1
  else if sig r.bank0 && sig r.bank1 then 2
  else if below h.bank0 r.bank0 && below h.bank1 r.bank1 then 3
  else 1 + fresh % 3
/-- Why bring-up runs full, if it does (R492): the first reason of the list that holds. -/
def fullReason (b : Bringup) (fw : List Byte) : Option Nat :=
  if b.mode = 0 then some 0
  else if b.stored.isNone then some 1
  else if b.mark then some 2
  else if 31 ≤ b.fastSince then some 3
  else if fw ≠ b.lastFw then some 4
  else none
/-- One C node's boot: what it runs, if anything, and its boot code where its ROM stopped. -/
def bootOne (s : State) (h : HostHem) (home : NodeId) (r : BootRead) : Option (List Byte) × Option Nat :=
  if h.dead || (s.panel (panelOf home)).state == 4 then (none, none)
  else match acceptedBank h r with
    | some b => (some b, none)
    | none => (none, some (bootCodeOf h r (Config.free s.free)))
/-- The stewards have booted: their firmware, and whether bring-up runs full or fast (R467, R468, R492, R493, R596). -/
def stewardsUp (s : State) (a b : Option (List Byte)) (sameImage : Bool) : State :=
  let bank := (a.or b).getD []
  let svn := bankSvn bank
  let digest := sized 48 (bankDigest bank)
  let mismatch := decide (a.isSome ∧ b.isSome) && (!sameImage || a != b)
  let why := fullReason s.brg digest
  let s := { s with
    stw := { s.stw with stewardLost := a.isNone, standbyLost := b.isNone, standbyActs := a.isNone }
    sec := { s.sec with
      fwSteward := if a.isSome then digest else s.sec.fwSteward, svnSteward := if a.isSome then svn else 0
      fwStandby := if b.isSome then digest else s.sec.fwStandby, svnStandby := if b.isSome then svn else 0, fwVersion := bankVersion bank }
    brg := { s.brg with mark := true, full := why.isSome, reason := why.getD 0, mismatch := mismatch } }
  let arb := max s.hemA.arb s.hemB.arb
  let s := advanceArb { s with hemA := { s.hemA with arb := arb }, hemB := { s.hemB with arb := arb } }
  (addRecord s 1 2 (b2n a.isNone + b2n b.isNone)).toPhase 4
/-- BRINGUP_PHASE_3 (R466 to R468, R492, R493, R596): steward and standby boot; with neither the module stays in phase 3. -/
def execBringupPhase3 (bootA bootB : BootRead) (sameImage : Bool) (s : State) : Res :=
  inPhase 3 s (fun s =>
    let f := s.takeFree
    let a := bootOne s s.hemA stewardNode bootA
    let b := bootOne s s.hemB standbyNode bootB
    let t := { f.2 with hemA := { s.hemA with bootCode := a.2 }, hemB := { s.hemB with bootCode := b.2 } }
    if a.1.isNone ∧ b.1.isNone then t else stewardsUp t a.1 b.1 sameImage)

/-- The repair maps of the stored record applied (R483, R486, R487). -/
def applyRepairs (s : State) : State :=
  match s.brg.stored with
  | none => s
  | some r =>
    let s := r.lanes.foldl (fun s e => s.updNode e.1 (fun d => { d with mc := { d.mc with rowRep := e.2.1, colRep := e.2.2 } })) s
    let s := r.lost.foldl (fun s e => s.updNode e.1 (fun d => { d with mc := { d.mc with badRows := e.2.1, badCols := e.2.2 } })) s
    let s := r.rows.foldl (fun s e => s.updNode e.1 (fun d => { d with pad := { d.pad with retired := e.2 } })) s
    r.lining.foldl (fun s e => s.updNode e.1 (fun d => { d with ln := { d.ln with spareRows := e.2 } })) s
/-- BRINGUP_PHASE_4 (R464, R465, R469 to R472, R487): warden firmware at the other C nodes; the module is in TEST. -/
def execBringupPhase4 (badDigest : List NodeId) (s : State) : Res :=
  if badDigest.any (fun n => !nodeExists n) then .fault .noSuchUnit
  else inPhase 4 s (fun s =>
    let s := failNodes s [.c] 0x27 badDigest
    (applyRepairs { s with stw := { s.stw with mstate := .test } }).toPhase 5)

/-- A panel outside the test window (R473, R474, log 43), or still waiting for it. -/
def outsideWindow (x : Panel) : Bool := decide (x.state < 3) && (x.state == 2 || !testDivider x.core)
/-- Phases 5 to 9 (R474): suspended while a panel is outside the test window. -/
def inWindow (n : Nat) (s : State) (f : State → State) : Res :=
  inPhase n s (fun s =>
    let s := (List.range 42).foldl (fun s k => if outsideWindow (s.panel k) then s.updPanel k (fun x => { x with testWait := true }) else s) s
    if (List.range 42).any (fun k => (s.panel k).testWait) then s else (f s).toPhase (n + 1))
/-- TEST_WINDOW_RESUME (R474): the window holds again. -/
def execTestWindowResume (panel : Nat) (s : State) : Res :=
  if 42 ≤ panel then .fault .noSuchUnit else .next (if outsideWindow (s.panel panel) then s else s.updPanel panel (fun x => { x with testWait := false }))

/-- A router out of use, its links with it (R420, R476, R477). -/
def deadRouter (s : State) (r : NodeId) : State :=
  let s := [portN, portE, portS, portW].foldl (fun s p => (linkEnds r p).foldl (fun s e => s.updPort e.1 e.2 (fun q => if q.state = 1 then { q with state := 0 } else q)) s) s
  remapFor (s.updRouter r (fun x => { x with dead := true })) r
/-- A panel whose C nodes have both failed (R477). -/
def loseWardens (s : State) (k : Nat) : State :=
  let cs := (panelNodes k).filter (fun n => kindOf n == .c)
  if (s.panel k).state == 4 || cs.isEmpty || !cs.all (hasFailed s) then s
  else
    let ns := panelNodes k
    let s := failNodes s [.m, .v, .f, .l, .c] 0x2C ns
    let s := ns.foldl deadRouter s
    { s with brg := { s.brg with
      wardenLost := setIns s.brg.wardenLost k, fails := s.brg.fails.map (fun e => if ns.contains e.1 then (e.1, 0x2C) else e) } }
/-- BRINGUP_PHASE_5 (R464, R476, R477, R643): routers, links and wardens tested, and the panels' control counters measured. A C node that fails
its known-answer test carries KAT_FAIL (log 57). -/
def execBringupPhase5 (badRouters : List NodeId) (badLinks : List (NodeId × Nat)) (badC : List NodeId) (offsets : List Int) (s : State) : Res :=
  if (badRouters ++ badC).any (fun n => !nodeExists n) || badLinks.any (fun e => !linkOk e.1 e.2) then .fault .noSuchUnit
  else inWindow 5 s (fun s =>
    let routers := testedNow s [.m, .v, .f, .l, .c]
    let cs := testedNow s [.c]
    let bad := badRouters.filter (fun r => underTest s r || hasFailed s r)
    let s := failNodes s [.m, .v, .f, .l, .c] 0x2B bad
    let s := bad.foldl deadRouter s
    let s := (badLinks.filter (fun e => !(linkEnds e.1 e.2).any (fun x => (s.router x.1).dead))).foldl (fun s e => holdBad s e.1 e.2) s
    let s := { s with brg := { s.brg with badRouters := bad } }
    let s := failNodes s [.c] 0x28 badC
    let failedC := s.brg.fails.countP (fun e => kindOf e.1 == .c && e.2 == 0x28)
    let s := (List.range 42).foldl loseWardens s
    let s := { s with stw := { s.stw with
      stewardLost := s.stw.stewardLost || hasFailed s stewardNode, standbyLost := s.stw.standbyLost || hasFailed s standbyNode
      standbyActs := s.stw.standbyActs || hasFailed s stewardNode } }
    let s := offsets.zipIdx.foldl (fun s e => if e.2 < 42 then s.updPanel e.2 (fun x => { x with offset := e.1 }) else s) s
    addRecord (addRecord s 3 routers (bad.length + badLinks.length)) 4 cs failedC)

/-- BRINGUP_PHASE_6 (R464, R470, R471): test kits at compute cores and L nodes. -/
def execBringupPhase6 (badDigest : List NodeId) (s : State) : Res :=
  if badDigest.any (fun n => !nodeExists n) then .fault .noSuchUnit
  else inWindow 6 s (fun s =>
    let n := testedNow s [.m, .v, .f, .l, .c]
    let s := failNodes s [.m, .v, .f, .l] 0x27 badDigest
    addRecord s 2 n (failedWith s [0x27]))

/-- Votes of one subject: passes and failures from testers not marked (R479). -/
def voteCount (votes : List (NodeId × NodeId × Bool)) (marked : List NodeId) (n : NodeId) : Nat × Nat :=
  let v := votes.filter (fun e => e.2.1 == n && !marked.contains e.1)
  (v.countP (fun e => e.2.2), v.countP (fun e => !e.2.2))
/-- Subjects with F ≥ 2 and F > P (R479 step 2). -/
def markVotes (votes : List (NodeId × NodeId × Bool)) (ns marked : List NodeId) : List NodeId :=
  ns.filter (fun n => let c := voteCount votes marked n; decide (2 ≤ c.2) && decide (c.1 < c.2))
/-- Step 2 repeated until no mark changes, at most four times (R479 step 3). -/
def settleVotes (votes : List (NodeId × NodeId × Bool)) (ns : List NodeId) : Nat → List NodeId → List NodeId
  | 0, marked => marked
  | k + 1, marked => let next := markVotes votes ns marked; if next = marked then marked else settleVotes votes ns k next
/-- M, V and F cores. -/
def isCompute (k : Kind) : Bool := k == .m || k == .v || k == .f
/-- Votes that R478 gives: of a V or F core under test about a compute core next to it, one each. -/
def validVotes (s : State) (votes : List (NodeId × NodeId × Bool)) : List (NodeId × NodeId × Bool) :=
  (votes.filter (fun e =>
    underTest s e.1 && (kindOf e.1 == .v || kindOf e.1 == .f) && underTest s e.2.1 && isCompute (kindOf e.2.1) &&
      [portN, portE, portS, portW].any (fun p => neighbour e.1 p == some e.2.1))).foldl
    (fun l e => if l.any (fun x => x.1 == e.1 && x.2.1 == e.2.1) then l else l ++ [e]) []
/-- BRINGUP_PHASE_7 (R478, R479): the neighbours' votes decide, and the warden's own test where they do not. -/
def execBringupPhase7 (votes : List (NodeId × NodeId × Bool)) (direct : List (NodeId × Bool)) (s : State) : Res :=
  if votes.any (fun e => !nodeExists e.1 || !nodeExists e.2.1) || direct.any (fun e => !nodeExists e.1) then .fault .noSuchUnit
  else inWindow 7 s (fun s =>
    let votes := validVotes s votes
    let ns := allNodes.filter (fun n => isCompute (kindOf n) && underTest s n)
    let marked := settleVotes votes ns 4 (markVotes votes ns [])
    let bad := ns.filter (fun n =>
      let c := voteCount votes marked n
      if c.1 = c.2 then direct.any (fun e => e.1 == n && !e.2) else decide (c.1 < c.2))
    let s := failNodes s [.m, .v, .f] 0x28 bad
    addRecord s 5 ns.length bad.length)

/-- BRINGUP_PHASE_8 (R480): failing rows and columns retired to spares; a core short of them, or that misses an injected fault, is DEFECT. -/
def execBringupPhase8 (rows cols : List (NodeId × List Nat)) (missed : List NodeId) (s : State) : Res :=
  if (rows ++ cols).any (fun e => !nodeExists e.1 || e.2.any (fun k => decide (520 ≤ k))) || missed.any (fun n => !nodeExists n) then .fault .noSuchUnit
  else inWindow 8 s (fun s =>
    let lanes (l : List (NodeId × List Nat)) (n : NodeId) : List Nat := (l.filter (fun e => e.1 == n)).flatMap (·.2)
    let ms := allNodes.filter (fun n => kindOf n == .m && underTest s n)
    let s := ms.foldl (fun s n =>
      let x := (s.node n).mc
      match retireLanes (lanes rows n) (some (x.rowRep, x.badRows)), retireLanes (lanes cols n) (some (x.colRep, x.badCols)) with
      | some r, some c =>
        let s := s.updNode n (fun d => { d with mc := { d.mc with rowRep := r.1, badRows := r.2, colRep := c.1, badCols := c.2 } })
        if missed.contains n then failNodes s [.m] 0x29 [n] else s
      | _, _ => failNodes s [.m] 0x29 [n]) s
    addRecord s 6 ms.length (failedWith s [0x29]))

/-- A scratchpad row found bad (R161, R481): retired to a spare row of its bank; none where they have run out. -/
def testRow (s : State) (n : NodeId) (bank row : Nat) : State :=
  let p := (s.node n).pad
  if !underTest s n || p.retired.contains (bank, row) then s
  else if spareRowsLeft p bank = 0 then failNodes s [.m, .v, .f, .l, .c] 0x17 [n]
  else s.updNode n (fun d => { d with pad := { d.pad with retired := d.pad.retired ++ [(bank, row)], rowsRetired := satAdd d.pad.rowsRetired 1 } })
/-- BRINGUP_PHASE_9 (R481): scratchpads marched, and the L nodes' logic tested. A row is named by its owner bank and its number in it. -/
def execBringupPhase9 (badRows : List (NodeId × Nat × Nat)) (badL : List NodeId) (s : State) : Res :=
  if badRows.any (fun e => !nodeExists e.1 || decide (padBytes e.1 / 0x100000 ≤ e.2.1) || decide (1024 ≤ e.2.2)) || badL.any (fun n => !nodeExists n) then .fault .noSuchUnit
  else inWindow 9 s (fun s =>
    let pads := (allNodes.filter (fun n => decide (padBytes n ≠ 0) && underTest s n)).length
    let ls := testedNow s [.l]
    let s := badRows.foldl (fun s e => testRow s e.1 e.2.1 e.2.2) s
    let s := failNodes s [.l] 0x23 badL
    addRecord (addRecord s 7 pads (failedWith s [0x17])) 8 ls (failedWith s [0x23]))

/-- A failing Lining row repaired to a spare row of its DRAM bank (R483); a row is numbered row × 64 + bank (log 58). -/
def repairRow (s : State) (n : NodeId) (row : Nat) : State :=
  let x := (s.node n).ln
  if !underTest s n || kindOf n != .l || x.spareRows.contains row then s
  else if 32 ≤ (x.spareRows.filter (fun k => k % 64 == row % 64)).length then failNodes s [.l] 0x2A [n]
  else s.updNode n (fun d => { d with ln := { d.ln with spareRows := d.ln.spareRows ++ [row] } })
/-- BRINGUP_PHASE_10 (R465, R475, R482 to R484, R493): memory tested, repaired and zeroed; nodes reset with their banks unassigned; the module
is in FITTING. -/
def execBringupPhase10 (badRows : List (NodeId × Nat)) (badL : List NodeId) (badPackages : List Nat) (s : State) : Res :=
  if badRows.any (fun e => !nodeExists e.1) || badL.any (fun n => !nodeExists n) || badPackages.any (fun p => decide (128 ≤ p)) then .fault .noSuchUnit
  else inPhase 10 s (fun s =>
    let ls := testedNow s [.l]
    let s := badRows.foldl (fun s e => repairRow s e.1 e.2) s
    let s := failNodes s [.l] 0x2A badL
    let s := { s with
      lining := [], bolt := [], boltMeta := []
      brg := { s.brg with badPackages := badPackages.foldl setIns s.brg.badPackages }
      stw := { s.stw with mstate := .fitting, f := { s.stw.f with boltLost := badPackages.foldl setIns s.stw.f.boltLost } } }
    let s := allNodes.foldl (fun s n => s.updNode n (fun d => dropOwner n { d.reset with ln := { d.reset.ln with poison := [] } })) s
    (addRecord (addRecord s 9 ls (failedWith s [0x2A])) 10 128 s.brg.badPackages.length).toPhase 11)

/-- STATE and CODE of a node's entry from its tests and its stored entry (R488, R493). -/
def builtState (s : State) (old : MapEntry) (n : NodeId) : Nat × Nat :=
  if (s.panel (panelOf n)).state = 4 then (3, 0)
  else match s.brg.fails.find? (fun e => e.1 == n) with
    | some e => (2, e.2)
    | none => if old.state = 2 ∨ (old.state = 1 ∧ fenceStays old.code) then (old.state, old.code) else (0, 0)
/-- A node's entry of the completed map (R412, R413, R476, R477, R488). -/
def builtEntry (s : State) (old : MapEntry) (n : NodeId) : MapEntry :=
  let st := builtState s old n
  let k := panelOf n
  let r := s.router n
  let nd := s.node n
  { state := st.1, code := st.2, genLow := 1
    router := if (s.panel k).state = 4 ∨ s.brg.wardenLost.contains k then 2 else if r.dead then 1 else 0
    links := ((List.range 4).filter (fun p => portLeads n p && (r.port p).state != 1)).map (fun p => (p, if (r.port p).linkHeld then 3 else 1))
    repairs := if kindOf n = .m then nd.mc.rowRep.length + nd.mc.colRep.length else min 255 nd.pad.retired.length
    faults := if hasFailed s n then 1 else 0 }
/-- BRINGUP_PHASE_11 (R413, R486, R488, R489): the map is built as generation 1 and compared with the stored one; nodes that are not GOOD stay
fenced; the grade is checked. -/
def execBringupPhase11 (storedValid : Bool) (s : State) : Res :=
  inPhase 11 s (fun s =>
    let stored := if storedValid then s.brg.stored else none
    let old (n : NodeId) : MapEntry := match stored with | some r => Table.get {} r.map n | none => {}
    let map : Table MapEntry := allNodes.foldl (fun m n => Table.put m n (builtEntry s (old n) n)) []
    let count (f : Nat → Nat → Bool) : Nat := (allNodes.filter (fun n => f (old n).state (Table.get {} map n).state)).length
    let diff := if stored.isNone then 0xFFFFFFFF else count (fun a b => decide (a < b)) * 65536 + count (fun a b => decide (b < a))
    let s := s.updFaults (fun q => { q with map := map, gen := 1, dirty := true })
    let s := allNodes.foldl (fun s n => s.updNode n (fun d => { d with fenced := (Table.get {} map n).state != 0 })) s
    let s := { s with brg := { s.brg with diff := diff } }
    ({ s with brg := { s.brg with short := gradeShort s } }).toPhase 12)

/-- The stored record of this bring-up (R414, R483, R486). -/
def recordOf (s : State) : Stored :=
  let of (k : Kind) : List NodeId := allNodes.filter (fun n => kindOf n == k)
  { map := s.stw.f.map
    lanes := (of .m).map (fun n => (n, (s.node n).mc.rowRep, (s.node n).mc.colRep))
    lost := (of .m).map (fun n => (n, (s.node n).mc.badRows, (s.node n).mc.badCols))
    rows := allNodes.map (fun n => (n, (s.node n).pad.retired))
    lining := (of .l).map (fun n => (n, (s.node n).ln.spareRows)) }
/-- The configuration that flash keeps restored (R245, R491, R569); a module in SAFE defines no partition (R490). -/
def restoreConfig (s : State) (safe : Bool) : State :=
  let set : ConfigSet := s.brg.config.getD {}
  let set := if safe then { set with parts := [] } else set
  let s := s.updDict (fun d => { d with shadow := set })
  let s := (List.range 16).foldl applyPart s
  let s := s.updDict (fun d => { d with active := set, shadow := set, staged := [] })
  let s := if set.transit then gateAll s true else s
  match s.brg.kept with
  | none => s
  | some t => { s with twin := { s.twin with domains := t.domains, expect := t.expect, timeout := t.timeout, addr := t.addr, record := t.record } }
/-- A panel without wardens switched off (R477). -/
def switchOff (s : State) (k : Nat) : State :=
  (panelNodes k).foldl (fun s n => s.updNode n Node.dark) (s.updPanel k (fun x => { x with state := 3, volt := 0 }))
/-- BRINGUP_PHASE_12 (R464, R465, R477, R486, R489 to R493): the configuration is restored, the record is written, and the module is READY,
DEGRADED or SAFE. -/
def execBringupPhase12 (elapsedMs : Nat) (s : State) : Res :=
  inPhase 12 s (fun s =>
    let outcome : ModuleState := if s.brg.short = 0 then .ready else if s.brg.accept then .degraded else .safe
    let s := restoreConfig s (outcome == .safe)
    let s := s.updFaults (fun q => { q with stored := q.gen, dirty := false })
    let b := s.brg
    let s := { s with
      stw := { s.stw with mstate := outcome }
      brg := { b with
        phase := 0x0D, mark := false, timeMs := elapsedMs % 2 ^ 32, stored := some (recordOf s), lastFw := fwRunning s
        fastSince := if b.full then 0 else min 31 (b.fastSince + 1) } }
    setRoles (b.wardenLost.foldl switchOff s))

/-- SERVICE_TEST's effect (R485, R486, R530): one test of one unit by EXECUTE; its depth is not stated and its record says what is open (log 1). -/
def serviceTest (s : State) (v tested failed durationMs : Nat) : State × Nat :=
  let test := v / 2 ^ 24
  if test = 0 ∨ 10 < test then (s, 0x02000001)
  else
    let f := s.takeFree
    let g := f.2.takeFree
    let r : TestRecord := ⟨test, Config.free f.1 % 2 == 0, (coverageOf test).getD (Config.free g.1 % 65536), durationMs % 2 ^ 32, tested % 2 ^ 32, failed % 2 ^ 32⟩
    ({ g.2 with stw := { s.stw with serviceResult := testBytes r } }, 0)
/-- SERVICE_TEST (R485, R530). -/
def execServiceTest (h : ReqHdr) (v : U32) (tested failed durationMs : Nat) (s : State) : Res :=
  onObject h 0x9000 0 s (fun s => answerOf s (serviceTest s v.toNat tested failed durationMs) none)

end Sys2Proof.Machine
end

