-- ==== Sys2Proof/Machine/Requests.lean ====
section
/-! DEFINITION. Dictionary WRITE, EXECUTE and SEGMENT of any object (R500 to R512). What another row's operands say of a physical outcome is open
here (log 1). -/

namespace Sys2Proof.Machine
open Sys2Proof

/-- PARTITION_CMD by its code (R516). -/
def partitionCmd (s : State) (p v : Nat) : Ans :=
  match v with
  | 1 => answerOf s (cmdStart s p) none
  | 2 => answerOf s (cmdPause s p) (some (p, statesBut [3]))
  | 3 => answerOf s (cmdResume s p) none
  | 4 => answerOf s (cmdUnload s p) (some (p, [0]))
  | 5 => answerOf s (cmdForceSeam s p) none
  | _ => refuse s 0x02000001
/-- MODULE_REQUEST by its value (R515). -/
def moduleRequest (s : State) (v : Nat) : Ans :=
  match v with
  | 3 => answerOf s (requestReady s) none
  | 6 => let r := requestSafe s; answerOf s r (if r.1.stw.mstate = .safe then none else some (18, []))
  | 7 => answerOf s (requestService s) none
  | _ => refuse s 0x03000001
/-- IMAGE_LOAD of serialised bytes (R211, R516): bytes that are no image are refused as an invalid configuration. -/
def loadBytes (s : State) (p : Nat) (v : List Byte) : Ans :=
  match Config.imageOf v with
  | none => refuse s 0x04000003
  | some img =>
    let r := beginLoad s p img
    answerOf s r (if (r.1.part p).state = .loading then some (p, statesBut [1]) else none)
/-- A module reset ordered by an object (R456): EXECUTE answers when it is done. -/
def resetAnswer (s : State) (r : State × Nat) : Ans := answerOf s r (if r.1.stw.moduleReset.isSome then some (16, []) else none)
/-- FW_ACTIVATE by its value (R594, R599). -/
def activateBy (s : State) (v : Nat) : Ans :=
  match v with
  | 1 => let f := s.takeFree; activateInPlace f.2 (Config.free f.1 % 2 == 1)
  | 2 => resetAnswer s (activateByReset s)
  | _ => refuse s 0x02000001
/-- FW_UPDATE whose flash writes may fail (R593). -/
def updateBy (s : State) (v : List Byte) : Ans :=
  let f := s.takeFree
  updateFirmware f.2 v (Config.free f.1 % 2 == 0) (Config.free f.1 / 2 % 2 == 0)
/-- SERVICE_TEST whose figures are open (R530). -/
def testBy (s : State) (v : Nat) : Ans :=
  let f := s.takeFree
  answerOf s (serviceTest f.2 v (Config.free f.1) (Config.free f.1 / 2 ^ 32) (Config.free f.1 / 2 ^ 64)) none
/-- RETEST_NODE whose outcome is open (R416). -/
def retestBy (s : State) (n : Nat) : Ans :=
  let f := s.takeFree
  answerOf s (retest f.2 n (Config.free f.1 % 2 == 1)) none

/-- Objects of 0x2000 to 0x5FFF that act (R516, R438, R463, R490, R528, R529). -/
def actLow (s : State) (who : Requester) (index sub n : Nat) (v : List Byte) : Option Ans :=
  let p := sub - 1
  match index with
  | 0x2001 => some (moduleRequest s n)
  | 0x3004 => some (partitionCmd s p n)
  | 0x3010 => some (loadBytes s p v)
  | 0x3014 => some (if (s.cfg p).prot then refuse s 0x03000001 else done (s.updPart p (fun x => { x with tenantSeed := BitVec.ofNat 64 n })))
  | 0x4010 => some (openBobbin s who v)
  | 0x4011 => some (answerOf s (closeBobbin s who n) none)
  | 0x4012 => some (answerOf s (moveBobbin s who (n % 2 ^ 32) (n.testBit 32)) none)
  | 0x5040 => some (answerOf s (fenceOrder s n) none)
  | 0x5041 => some (retestBy s n)
  | 0x5070 => some (answerOf s (resetNodeCmd s n) none)
  | 0x5071 => some (answerOf s (resetCluster s n) none)
  | 0x5072 => some (let r := resetPartition s n; answerOf s r (if (r.1.part n).resetFor.isSome then some (n, [0, 4, 7]) else none))
  | 0x5073 => some (resetAnswer s (resetModule s n))
  | 0x5085 => some (answerOf s (acceptGrade s n) none)
  | _ => none
/-- Objects of 0x6000 up that act (R396, R530, R599, R613, R618, R657). -/
def actHigh (s : State) (h : ReqHdr) (index sub n : Nat) (v : List Byte) : Option Ans :=
  match index with
  | 0x6010 => some (answerOf s (clearRouters s n) none)
  | 0x7000 => some (attest s h v)
  | 0x7011 => some (answerOf s (deliverKeys s (sub - 1) v) none)
  | 0x7012 => some (answerOf s (rotateOrder s (sub - 1) n) (some (32 + (sub - 1), [])))
  | 0x7020 => some (answerOf s (setDebugClass s (sub - 1) n) none)
  | 0x7030 => some (answerOf s (resealWith s v) none)
  | 0x7040 => some (updateBy s v)
  | 0x7041 => some (activateBy s n)
  | 0x8010 => some (answerOf s (pairTwin s v) none)
  | 0x8012 => some (let r := detachTwin s n; answerOf s r (if r.1.twin.state = twDetaching then some (17, []) else none))
  | 0x9000 => some (testBy s n)
  | 0xA000 => some (answerOf s (setLimit s n) none)
  | 0xA011 => some (answerOf s (requestPanel s (sub - 1) n) none)
  | _ => none
/-- A whole value written to an object (R506, R507). -/
def writeValue (s : State) (h : ReqHdr) (o : Obj) (sub : Nat) (v : List Byte) : Ans :=
  let n := leNat v
  if o.size.any (fun k => k != v.length) then refuse s 0x02000002
  else ((actLow s h.who o.index sub n v).or (actHigh s h o.index sub n v)).getD (answerOf s (plainWrite s o.index sub v) none)

/-- A WRITE or an EXECUTE of any object (R500, R505, R507 to R509, R511): a DOMAIN value comes with its transfer descriptor; the 40 bytes of an
ATTEST are its payload as they are (R584). -/
def writeRequest (s : State) (r : Req) (execute : Bool) : Ans :=
  let h : ReqHdr := ⟨r.who, r.seq, execute⟩
  let sub := r.sub.toNat
  match objAt r.index.toNat sub with
  | none => refuse s 0x01000001
  | some o =>
    match writeRefused s r.who o sub with
    | 0 =>
      if bit r.flags 3 ∧ !o.domain then refuse s 0x02000004
      else if o.domain ∧ !(execute && o.index == 0x7000 && r.payload.length == 40) then
        openWrite s r.who (if execute then 5 else 2) o.index sub r.payload (bit r.flags 3) (fun t v => writeValue t h o sub v)
      else
        let a := writeValue s h o sub r.payload
        if execute then a else { a with data := [] }
    | c => refuse s c
/-- DICT_WRITE (R500, R507). -/
def execDictWrite (r : Req) (s : State) : Res := onRequest 2 r s (fun s => writeRequest s r false)
/-- EXECUTE (R500, R507): its answer waits for what the action does. -/
def execExecute (r : Req) (s : State) : Res := onRequest 5 r s (fun s => writeRequest s r true)

/-- The last byte of a write transfer has come: the object takes its value (R511). -/
def applyTransfer (s : State) (t : Transfer) (seq : U32) (v : List Byte) : Ans :=
  match objAt t.index t.sub with
  | none => refuse s 0x01000001
  | some o =>
    if t.op = 3 then
      (match stageRefused s t.who o t.sub with | 0 => stageValue s s o t.sub v | c => refuse s c)
    else
      (match writeRefused s t.who o t.sub with | 0 => writeValue s ⟨t.who, seq, t.op == 5⟩ o t.sub v | c => refuse s c)
/-- A read SEGMENT (R510 to R512): the descriptor, then the snapshot's bytes from OFFSET, or those bytes into host memory by DMA. -/
def readSegment (s : State) (t : Transfer) (off : Nat) (dma : Option (List Byte)) : Ans :=
  let fin (s : State) (n : Nat) : State := if t.total ≤ off + n then closeTransfer s t.xfer else s
  let desc := leBytes 4 off ++ leBytes 2 t.xfer ++ [0, 0]
  if t.total < off then refuse s 0x02000005
  else match dma with
    | none =>
      let n := min 1016 (t.total - off)
      ⟨fin s n, 0, desc ++ (t.data.drop off).take n, decide (off + n < t.total), none⟩
    | some p =>
      match dmaDesc p (t.total - off) with
      | .inl c => refuse s c
      | .inr (a, n) => ⟨fin { s with hostMem := s.hostMem.write a ((t.data.drop off).take n) } n, 0, desc, decide (off + n < t.total), none⟩
/-- A write SEGMENT (R511, R512): it goes on where the last one ended, or the partial write is discarded. Bytes that come by DMA are open (log 1). -/
def writeSegment (s : State) (t : Transfer) (seq : U32) (off : Nat) (rest : List Byte) (dma : Bool) : Ans :=
  let f := s.takeFree
  let src : Nat ⊕ (State × List Byte) := if dma then
      (match dmaDesc rest 0xFFFFFFFF with | .inl c => .inl c | .inr (_, n) => .inr (f.2, leBytes n (Config.free f.1)))
    else .inr (s, rest)
  match src with
  | .inl c => refuse s c
  | .inr (s, d) =>
    if off ≠ t.data.length ∨ t.total < t.data.length + d.length then refuse (closeTransfer s t.xfer) 0x02000005
    else
      let v := t.data ++ d
      if v.length < t.total then
        done (s.updDict (fun q => { q with transfers := q.transfers.map (fun x => if x.xfer = t.xfer then { x with data := v, moved := v.length } else x) }))
      else applyTransfer (closeTransfer s t.xfer) t seq v
/-- SEGMENT (R505, R510 to R512): of the requester's open transfer. One that names another object or the other direction breaks the order. -/
def execSegment (r : Req) (s : State) : Res :=
  onRequest 6 r s (fun s =>
    let off := leNat (r.payload.take 4)
    let x := leNat ((r.payload.drop 4).take 2)
    let dir := leNat ((r.payload.drop 6).take 1)
    let rest := r.payload.drop 8
    let dma := bit r.flags 3
    if r.payload.length < 8 ∨ leNat ((r.payload.drop 7).take 1) ≠ 0 ∨ 1 < dir then refuse s 0x02000004
    else match s.stw.d.transfers.find? (fun t => t.xfer == x && t.who == r.who) with
      | none => refuse s 0x02000005
      | some t =>
        let wrong := t.index != r.index.toNat || t.sub != r.sub.toNat || dir != b2n (t.op != 1)
        if wrong then refuse (if t.op = 1 then s else closeTransfer s x) 0x02000005
        else if t.op = 1 then (if !dma && !rest.isEmpty then refuse s 0x02000004 else readSegment s t off (if dma then some rest else none))
        else writeSegment s t r.seq off rest dma)

end Sys2Proof.Machine
end

