-- ==== Sys2Proof/Machine/Dispatch.lean ====
section
/-! DEFINITION. One arm per command: the direct call of its meaning, or its refusal by name. -/

namespace Sys2Proof.Machine
open Sys2Proof

/-- What a command does to everything but the queue. -/
def exec (i : Instr) (s : State) : Host.Outcome State Fault Refusal :=
  match i with
  | .mNop n w => Sys2Proof.Machine.execMNop n w s
  | .group n w => Sys2Proof.Machine.execGroup n w s
  | .pass n w => Sys2Proof.Machine.execPass n w s
  | .passScan n g => Sys2Proof.Machine.execPassScan n g s
  | .loopTableToken n loop => Sys2Proof.Machine.execLoopTableToken n loop s
  | .passIssue n struck => Sys2Proof.Machine.execPassIssue n struck s
  | .passComplete n err => Sys2Proof.Machine.execPassComplete n err s
  | .mDrain n w => Sys2Proof.Machine.execMDrain n w s
  | .drainIssue n differ struck => Sys2Proof.Machine.execDrainIssue n differ struck s
  | .drainResume n => Sys2Proof.Machine.execDrainResume n s
  | .tileRelease n => Sys2Proof.Machine.execTileRelease n s
  | .mRelease n w => Sys2Proof.Machine.execMRelease n w s
  | .releaseTakesEffect n => Sys2Proof.Machine.execReleaseTakesEffect n s
  | .mMark n w => Sys2Proof.Machine.execMMark n w s
  | .mMarkComplete n => Sys2Proof.Machine.execMMarkComplete n s
  | .cuffld n w => Sys2Proof.Machine.execCuffld n w s
  | .arrayDiagnostic n rows cols => Sys2Proof.Machine.execArrayDiagnostic n rows cols s
  | .ctlNop n w => Sys2Proof.Machine.execCtlNop n w s
  | .loopCount n w => Sys2Proof.Machine.execLoopCount n w s
  | .loopLoad n w => Sys2Proof.Machine.execLoopLoad n w s
  | .loopRead n w => Sys2Proof.Machine.execLoopRead n w s
  | .loopJump n w => Sys2Proof.Machine.execLoopJump n w s
  | .brtok n w => Sys2Proof.Machine.execBrtok n w s
  | .vMark n w => Sys2Proof.Machine.execVMark n w s
  | .vMarkComplete n patrol1 patrol2 => Sys2Proof.Machine.execVMarkComplete n patrol1 patrol2 s
  | .slot n w => Sys2Proof.Machine.execSlot n w s
  | .sclAdd n w => Sys2Proof.Machine.execSclAdd n w s
  | .sclSub n w => Sys2Proof.Machine.execSclSub n w s
  | .sclMul n w => Sys2Proof.Machine.execSclMul n w s
  | .sclAnd n w => Sys2Proof.Machine.execSclAnd n w s
  | .sclOr n w => Sys2Proof.Machine.execSclOr n w s
  | .sclXor n w => Sys2Proof.Machine.execSclXor n w s
  | .sclShl n w => Sys2Proof.Machine.execSclShl n w s
  | .sclShr n w => Sys2Proof.Machine.execSclShr n w s
  | .sclSra n w => Sys2Proof.Machine.execSclSra n w s
  | .movi n w => Sys2Proof.Machine.execMovi n w s
  | .movhi n w => Sys2Proof.Machine.execMovhi n w s
  | .tintAdd n w lane => Sys2Proof.Machine.execTintAdd n w lane s
  | .tintSub n w lane => Sys2Proof.Machine.execTintSub n w lane s
  | .tintMul n w lane => Sys2Proof.Machine.execTintMul n w lane s
  | .mulh n w lane => Sys2Proof.Machine.execMulh n w lane s
  | .tintAbs n w => Sys2Proof.Machine.execTintAbs n w s
  | .tintNeg n w => Sys2Proof.Machine.execTintNeg n w s
  | .tintMin n w => Sys2Proof.Machine.execTintMin n w s
  | .tintMax n w => Sys2Proof.Machine.execTintMax n w s
  | .mac n w lane => Sys2Proof.Machine.execMac n w lane s
  | .tintSel n w => Sys2Proof.Machine.execTintSel n w s
  | .tlogAnd n w => Sys2Proof.Machine.execTlogAnd n w s
  | .tlogOr n w => Sys2Proof.Machine.execTlogOr n w s
  | .tlogXor n w => Sys2Proof.Machine.execTlogXor n w s
  | .tlogNot n w => Sys2Proof.Machine.execTlogNot n w s
  | .tlogShl n w lane => Sys2Proof.Machine.execTlogShl n w lane s
  | .tlogShr n w => Sys2Proof.Machine.execTlogShr n w s
  | .tlogSra n w => Sys2Proof.Machine.execTlogSra n w s
  | .srar n w => Sys2Proof.Machine.execSrar n w s
  | .tfpAdd n w lane => Sys2Proof.Machine.execTfpAdd n w lane s
  | .tfpSub n w lane => Sys2Proof.Machine.execTfpSub n w lane s
  | .tfpMul n w lane => Sys2Proof.Machine.execTfpMul n w lane s
  | .fma n w lane => Sys2Proof.Machine.execFma n w lane s
  | .tfpMin n w => Sys2Proof.Machine.execTfpMin n w s
  | .tfpMax n w => Sys2Proof.Machine.execTfpMax n w s
  | .tfpAbs n w => Sys2Proof.Machine.execTfpAbs n w s
  | .tfpNeg n w => Sys2Proof.Machine.execTfpNeg n w s
  | .tfpSel n w => Sys2Proof.Machine.execTfpSel n w s
  | .cvt n w => Sys2Proof.Machine.execCvt n w s
  | .cvtmx n w => Sys2Proof.Machine.execCvtmx n w s
  | .cvtmxSquare n w => Sys2Proof.Machine.execCvtmxSquare n w s
  | .tcmpEq n w => Sys2Proof.Machine.execTcmpEq n w s
  | .tcmpNe n w => Sys2Proof.Machine.execTcmpNe n w s
  | .tcmpLt n w => Sys2Proof.Machine.execTcmpLt n w s
  | .tcmpLe n w => Sys2Proof.Machine.execTcmpLe n w s
  | .tcmpGt n w => Sys2Proof.Machine.execTcmpGt n w s
  | .tcmpGe n w => Sys2Proof.Machine.execTcmpGe n w s
  | .pand n w => Sys2Proof.Machine.execPand n w s
  | .por n w => Sys2Proof.Machine.execPor n w s
  | .pnot n w => Sys2Proof.Machine.execPnot n w s
  | .popc n w => Sys2Proof.Machine.execPopc n w s
  | .compress n w => Sys2Proof.Machine.execCompress n w s
  | .expand n w => Sys2Proof.Machine.execExpand n w s
  | .trans n w => Sys2Proof.Machine.execTrans n w s
  | .bcast n w => Sys2Proof.Machine.execBcast n w s
  | .rowb n w => Sys2Proof.Machine.execRowb n w s
  | .rsum n w => Sys2Proof.Machine.execRsum n w s
  | .rmax n w => Sys2Proof.Machine.execRmax n w s
  | .rmin n w => Sys2Proof.Machine.execRmin n w s
  | .ldt n w struck => Sys2Proof.Machine.execLdt n w struck s
  | .stt n w => Sys2Proof.Machine.execStt n w s
  | .lds n w struck => Sys2Proof.Machine.execLds n w struck s
  | .sts n w => Sys2Proof.Machine.execSts n w s
  | .send n w struck => Sys2Proof.Machine.execSend n w struck s
  | .sendProceeds n => Sys2Proof.Machine.execSendProceeds n s
  | .sendtok n w => Sys2Proof.Machine.execSendtok n w s
  | .recv n w => Sys2Proof.Machine.execRecv n w s
  | .recvRelonly n w => Sys2Proof.Machine.execRecvRelonly n w s
  | .recvany n w => Sys2Proof.Machine.execRecvany n w s
  | .recvCompletes n => Sys2Proof.Machine.execRecvCompletes n s
  | .kntArrive n w => Sys2Proof.Machine.execKntArrive n w s
  | .kntAdd n w => Sys2Proof.Machine.execKntAdd n w s
  | .kntWait n w => Sys2Proof.Machine.execKntWait n w s
  | .kntReset n w => Sys2Proof.Machine.execKntReset n w s
  | .knotReply at' => Sys2Proof.Machine.execKnotReply at' s
  | .exp2 n w differ => Sys2Proof.Machine.execExp2 n w differ s
  | .log2 n w differ => Sys2Proof.Machine.execLog2 n w differ s
  | .rcp n w differ => Sys2Proof.Machine.execRcp n w differ s
  | .rsqrt n w differ => Sys2Proof.Machine.execRsqrt n w differ s
  | .sin n w differ => Sys2Proof.Machine.execSin n w differ s
  | .cos n w differ => Sys2Proof.Machine.execCos n w differ s
  | .tanh n w differ => Sys2Proof.Machine.execTanh n w differ s
  | .erf n w differ => Sys2Proof.Machine.execErf n w differ s
  | .smx n w differ => Sys2Proof.Machine.execSmx n w differ s
  | .smn n w differ => Sys2Proof.Machine.execSmn n w differ s
  | .smerge n w differ => Sys2Proof.Machine.execSmerge n w differ s
  | .topk n w differ => Sys2Proof.Machine.execTopk n w differ s
  | .sort n w differ => Sys2Proof.Machine.execSort n w differ s
  | .sample n w differ => Sys2Proof.Machine.execSample n w differ s
  | .recordArrival at' => Sys2Proof.Machine.execRecordArrival at' s
  | .creditArrival at' => Sys2Proof.Machine.execCreditArrival at' s
  | .creditReturnTimeout n ep => Sys2Proof.Machine.execCreditReturnTimeout n ep s
  | .nackArrival at' => Sys2Proof.Machine.execNackArrival at' s
  | .knotArriveReq n => Sys2Proof.Machine.execKnotArriveReq n s
  | .knotAddReq n => Sys2Proof.Machine.execKnotAddReq n s
  | .knotWaitReq n => Sys2Proof.Machine.execKnotWaitReq n s
  | .knotResetReq n => Sys2Proof.Machine.execKnotResetReq n s
  | .knotRetryResend at' => Sys2Proof.Machine.execKnotRetryResend at' s
  | .stepCommitArrival at' => Sys2Proof.Machine.execStepCommitArrival at' s
  | .stepVetoReport p => Sys2Proof.Machine.execStepVetoReport p s
  | .timingReportReceipt => Sys2Proof.Machine.execTimingReportReceipt s
  | .seamOrderArrival n => Sys2Proof.Machine.execSeamOrderArrival n s
  | .stopStep n => Sys2Proof.Machine.execStopStep n s
  | .stopHold n => Sys2Proof.Machine.execStopHold n s
  | .stopRelease n => Sys2Proof.Machine.execStopRelease n s
  | .flitReceive r port f crcOk parityOk => Sys2Proof.Machine.execFlitReceive r port f crcOk parityOk s
  | .nakReceive r port fseq => Sys2Proof.Machine.execNakReceive r port fseq s
  | .linkIdleTimeout r port => Sys2Proof.Machine.execLinkIdleTimeout r port s
  | .nullKeepalive r port => Sys2Proof.Machine.execNullKeepalive r port s
  | .wardenLinkDown r port => Sys2Proof.Machine.execWardenLinkDown r port s
  | .linkRetrain r port trained => Sys2Proof.Machine.execLinkRetrain r port trained s
  | .packetForward pid => Sys2Proof.Machine.execPacketForward pid s
  | .multicastForward pid => Sys2Proof.Machine.execMulticastForward pid s
  | .budgetWindowStart r => Sys2Proof.Machine.execBudgetWindowStart r s
  | .telemetryWindowEnd panel sums => Sys2Proof.Machine.execTelemetryWindowEnd panel sums s
  | .linkHoldEnd panel => Sys2Proof.Machine.execLinkHoldEnd panel s
  | .readReq at' struckWord tagOk => Sys2Proof.Machine.execReadReq at' struckWord tagOk s
  | .writeReq at' => Sys2Proof.Machine.execWriteReq at' s
  | .readResp at' => Sys2Proof.Machine.execReadResp at' s
  | .writeAck at' => Sys2Proof.Machine.execWriteAck at' s
  | .pttEntryFetched at' p page => Sys2Proof.Machine.execPttEntryFetched at' p page s
  | .loadChunk n image attempt chunk chunks data => Sys2Proof.Machine.execLoadChunk n image attempt chunk chunks data s
  | .loadChunkTimeout n image => Sys2Proof.Machine.execLoadChunkTimeout n image s
  | .loadBarrierRelease => Sys2Proof.Machine.execLoadBarrierRelease s
  | .srvRead n ep struckWord differ => Sys2Proof.Machine.execSrvRead n ep struckWord differ s
  | .hint n ep => Sys2Proof.Machine.execHint n ep s
  | .stepEnd n ep => Sys2Proof.Machine.execStepEnd n ep s
  | .lMarkComplete n => Sys2Proof.Machine.execLMarkComplete n s
  | .append n ep => Sys2Proof.Machine.execAppend n ep s
  | .replace n ep => Sys2Proof.Machine.execReplace n ep s
  | .promotionComplete n tagOk differ => Sys2Proof.Machine.execPromotionComplete n tagOk differ s
  | .demotionComplete n differ => Sys2Proof.Machine.execDemotionComplete n differ s
  | .patrolScrub n corrected struckWord skipped => Sys2Proof.Machine.execPatrolScrub n corrected struckWord skipped s
  | .unmap p page => Sys2Proof.Machine.execUnmap p page s
  | .releaseScrubComplete p => Sys2Proof.Machine.execReleaseScrubComplete p s
  | .faultNotification c => Sys2Proof.Machine.execFaultNotification c s
  | .faultEventReceipt => Sys2Proof.Machine.execFaultEventReceipt s
  | .faultMapFlashWrite ok => Sys2Proof.Machine.execFaultMapFlashWrite ok s
  | .patrolStart panel patrol1 patrol2 => Sys2Proof.Machine.execPatrolStart panel patrol1 patrol2 s
  | .patrolDefer n => Sys2Proof.Machine.execPatrolDefer n s
  | .pressureMove p => Sys2Proof.Machine.execPressureMove p s
  | .stewardHeartbeat => Sys2Proof.Machine.execStewardHeartbeat s
  | .journalEntry => Sys2Proof.Machine.execJournalEntry s
  | .standbyTakeover => Sys2Proof.Machine.execStandbyTakeover s
  | .hangWindowExpiry panel p => Sys2Proof.Machine.execHangWindowExpiry panel p s
  | .quietReceipt p => Sys2Proof.Machine.execQuietReceipt p s
  | .contextWatchFire p => Sys2Proof.Machine.execContextWatchFire p s
  | .nodeResetDeadline n => Sys2Proof.Machine.execNodeResetDeadline n s
  | .partitionResetWaitEnd p => Sys2Proof.Machine.execPartitionResetWaitEnd p s
  | .partitionResetDeadline p => Sys2Proof.Machine.execPartitionResetDeadline p s
  | .moduleResetDeadline => Sys2Proof.Machine.execModuleResetDeadline s
  | .watchdogStroke => Sys2Proof.Machine.execWatchdogStroke s
  | .hemWatchdogExpiry h => Sys2Proof.Machine.execHemWatchdogExpiry h s
  | .stateScanOut n => Sys2Proof.Machine.execStateScanOut n s
  | .scanIn n => Sys2Proof.Machine.execScanIn n s
  | .mbxDoorbell f => Sys2Proof.Machine.execMbxDoorbell f s
  | .dictRead r => Sys2Proof.Machine.execDictRead r s
  | .dictWrite r => Sys2Proof.Machine.execDictWrite r s
  | .writeStaged r => Sys2Proof.Machine.execWriteStaged r s
  | .commit r => Sys2Proof.Machine.execCommit r s
  | .commitDiscard r => Sys2Proof.Machine.execCommitDiscard r s
  | .commitDryrun r => Sys2Proof.Machine.execCommitDryrun r s
  | .configActivate p => Sys2Proof.Machine.execConfigActivate p s
  | .execute r => Sys2Proof.Machine.execExecute r s
  | .segment r => Sys2Proof.Machine.execSegment r s
  | .domainTransferTimeout xfer => Sys2Proof.Machine.execDomainTransferTimeout xfer s
  | .stageTimeout => Sys2Proof.Machine.execStageTimeout s
  | .dictQueueTimeout => Sys2Proof.Machine.execDictQueueTimeout s
  | .neighbourSolicitation hem target => Sys2Proof.Machine.execNeighbourSolicitation hem target s
  | .moduleRequestReady h => Sys2Proof.Machine.execModuleRequestReady h s
  | .moduleRequestSafe h => Sys2Proof.Machine.execModuleRequestSafe h s
  | .moduleRequestService h => Sys2Proof.Machine.execModuleRequestService h s
  | .start h p => Sys2Proof.Machine.execStart h p s
  | .pause h p => Sys2Proof.Machine.execPause h p s
  | .resume h p => Sys2Proof.Machine.execResume h p s
  | .unload h p => Sys2Proof.Machine.execUnload h p s
  | .forceSeam h p => Sys2Proof.Machine.execForceSeam h p s
  | .imageLoad h p img => Sys2Proof.Machine.execImageLoad h p img s
  | .armBarrierComplete p => Sys2Proof.Machine.execArmBarrierComplete p s
  | .tenantSeed h p v => Sys2Proof.Machine.execTenantSeed h p v s
  | .bobbinOpen h payload => Sys2Proof.Machine.execBobbinOpen h payload s
  | .bobbinClose h handle => Sys2Proof.Machine.execBobbinClose h handle s
  | .bobbinDemoteAll h handle => Sys2Proof.Machine.execBobbinDemoteAll h handle s
  | .bobbinPromoteAll h handle => Sys2Proof.Machine.execBobbinPromoteAll h handle s
  | .fenceNode h n => Sys2Proof.Machine.execFenceNode h n s
  | .retestNode h n pass => Sys2Proof.Machine.execRetestNode h n pass s
  | .resetNode h n => Sys2Proof.Machine.execResetNode h n s
  | .resetCluster h c => Sys2Proof.Machine.execResetCluster h c s
  | .resetPartition h p => Sys2Proof.Machine.execResetPartition h p s
  | .resetModule h magic => Sys2Proof.Machine.execResetModule h magic s
  | .counterClear h v => Sys2Proof.Machine.execCounterClear h v s
  | .attest h payload => Sys2Proof.Machine.execAttest h payload s
  | .keyDeliver h p payload => Sys2Proof.Machine.execKeyDeliver h p payload s
  | .keyRotate h p v => Sys2Proof.Machine.execKeyRotate h p v s
  | .walkerPageMove p => Sys2Proof.Machine.execWalkerPageMove p s
  | .debugClassRaise h cluster cls => Sys2Proof.Machine.execDebugClassRaise h cluster cls s
  | .debugClassLower h cluster cls => Sys2Proof.Machine.execDebugClassLower h cluster cls s
  | .reseal h payload => Sys2Proof.Machine.execReseal h payload s
  | .fwUpdate h bank wroteA wroteB => Sys2Proof.Machine.execFwUpdate h bank wroteA wroteB s
  | .fwActivateInPlace h runsNew => Sys2Proof.Machine.execFwActivateInPlace h runsNew s
  | .fwActivateByReset h => Sys2Proof.Machine.execFwActivateByReset h s
  | .acceptBelowGrade h v => Sys2Proof.Machine.execAcceptBelowGrade h v s
  | .serviceTest h v tested failed durationMs => Sys2Proof.Machine.execServiceTest h v tested failed durationMs s
  | .panelRequest h panel v => Sys2Proof.Machine.execPanelRequest h panel v s
  | .powerLimit h v => Sys2Proof.Machine.execPowerLimit h v s
  | .twinPair h record => Sys2Proof.Machine.execTwinPair h record s
  | .twinDetach h v => Sys2Proof.Machine.execTwinDetach h v s
  | .registerWrite t v => Sys2Proof.Machine.execRegisterWrite t v s
  | .sqTailWrite f ring tail entries => Sys2Proof.Machine.execSqTailWrite f ring tail entries s
  | .sqNop f ring => Sys2Proof.Machine.execSqNop f ring s
  | .input f ring data => Sys2Proof.Machine.execInput f ring data s
  | .copyIn f ring data => Sys2Proof.Machine.execCopyIn f ring data s
  | .copyOut f ring => Sys2Proof.Machine.execCopyOut f ring s
  | .import' f ring data => Sys2Proof.Machine.execImport f ring data s
  | .sqImage f ring img => Sys2Proof.Machine.execSqImage f ring img s
  | .sqKnotArrive f ring => Sys2Proof.Machine.execSqKnotArrive f ring s
  | .sqKnotAdd f ring => Sys2Proof.Machine.execSqKnotAdd f ring s
  | .sqKnotWait f ring => Sys2Proof.Machine.execSqKnotWait f ring s
  | .sqKnotReset f ring => Sys2Proof.Machine.execSqKnotReset f ring s
  | .stepwait f ring => Sys2Proof.Machine.execStepwait f ring s
  | .cqHeadWrite f ring head => Sys2Proof.Machine.execCqHeadWrite f ring head s
  | .ringCfgWrite f ring v => Sys2Proof.Machine.execRingCfgWrite f ring v s
  | .outReadWrite f p v => Sys2Proof.Machine.execOutReadWrite f p v s
  | .outputRecordWrite p => Sys2Proof.Machine.execOutputRecordWrite p s
  | .bar4Read f off len => Sys2Proof.Machine.execBar4Read f off len s
  | .bar4Write f off data => Sys2Proof.Machine.execBar4Write f off data s
  | .takeover v => Sys2Proof.Machine.execTakeover v s
  | .pcieL0LossTimeout => Sys2Proof.Machine.execPcieL0LossTimeout s
  | .functionLevelResetVf f => Sys2Proof.Machine.execFunctionLevelResetVf f s
  | .functionLevelResetPf0 => Sys2Proof.Machine.execFunctionLevelResetPf0 s
  | .perstN hem asserted => Sys2Proof.Machine.execPerstN hem asserted s
  | .hello port f info => Sys2Proof.Machine.execHello port f info s
  | .proof port f => Sys2Proof.Machine.execProof port f s
  | .pairingTimeout => Sys2Proof.Machine.execPairingTimeout s
  | .heartbeatSend => Sys2Proof.Machine.execHeartbeatSend s
  | .heartbeat port f => Sys2Proof.Machine.execHeartbeat port f s
  | .ack port f => Sys2Proof.Machine.execAck port f s
  | .ackTimer stream => Sys2Proof.Machine.execAckTimer stream s
  | .resendTimer stream => Sys2Proof.Machine.execResendTimer stream s
  | .appendFrame port f => Sys2Proof.Machine.execAppendFrame port f s
  | .inputFrame port f => Sys2Proof.Machine.execInputFrame port f s
  | .endFrame port f => Sys2Proof.Machine.execEndFrame port f s
  | .durable port f => Sys2Proof.Machine.execDurable port f s
  | .commitFrame port f => Sys2Proof.Machine.execCommitFrame port f s
  | .fetch port f => Sys2Proof.Machine.execFetch port f s
  | .page port f => Sys2Proof.Machine.execPage port f s
  | .digest port f => Sys2Proof.Machine.execDigest port f s
  | .exchange port f => Sys2Proof.Machine.execExchange port f s
  | .spakanMgmt port f => Sys2Proof.Machine.execSpakanMgmt port f s
  | .relayForward port f => Sys2Proof.Machine.execRelayForward port f s
  | .relayExpiry port => Sys2Proof.Machine.execRelayExpiry port s
  | .twinTimeout => Sys2Proof.Machine.execTwinTimeout s
  | .spakanLinkTraining port lanesFailed polarity permuted light isSpakan => Sys2Proof.Machine.execSpakanLinkTraining port lanesFailed polarity permuted light isSpakan s
  | .spakanLinkIdleTimeout port => Sys2Proof.Machine.execSpakanLinkIdleTimeout port s
  | .spakanRetrain port => Sys2Proof.Machine.execSpakanRetrain port s
  | .pwrEnAssert conn => Sys2Proof.Machine.execPwrEnAssert conn s
  | .pwrEnDeassert conn => Sys2Proof.Machine.execPwrEnDeassert conn s
  | .pwrEnMismatch => Sys2Proof.Machine.execPwrEnMismatch s
  | .connectorUndervoltage c => Sys2Proof.Machine.execConnectorUndervoltage c s
  | .connectorOvervoltage c => Sys2Proof.Machine.execConnectorOvervoltage c s
  | .connectorReversed c => Sys2Proof.Machine.execConnectorReversed c s
  | .connectorRequalified c => Sys2Proof.Machine.execConnectorRequalified c s
  | .branchFuseOpen b => Sys2Proof.Machine.execBranchFuseOpen b s
  | .sensePairFault c shorted => Sys2Proof.Machine.execSensePairFault c shorted s
  | .refclockLost => Sys2Proof.Machine.execRefclockLost s
  | .limiterRun input branch => Sys2Proof.Machine.execLimiterRun input branch s
  | .thermalSensorRead panel logic dram => Sys2Proof.Machine.execThermalSensorRead panel logic dram s
  | .thermalComparatorPark panel => Sys2Proof.Machine.execThermalComparatorPark panel s
  | .voltageLoop panel slack => Sys2Proof.Machine.execVoltageLoop panel slack s
  | .coolantInletHigh inlet => Sys2Proof.Machine.execCoolantInletHigh inlet s
  | .tackPress conn => Sys2Proof.Machine.execTackPress conn s
  | .tackHeld conn => Sys2Proof.Machine.execTackHeld conn s
  | .tackWindowExpiry => Sys2Proof.Machine.execTackWindowExpiry s
  | .serviceJumper fitted => Sys2Proof.Machine.execServiceJumper fitted s
  | .selvageMeasure ohms toGround => Sys2Proof.Machine.execSelvageMeasure ohms toGround s
  | .selvageBreak => Sys2Proof.Machine.execSelvageBreak s
  | .bringupPhase1 refclk badPanels => Sys2Proof.Machine.execBringupPhase1 refclk badPanels s
  | .bringupPhase2 badLinks => Sys2Proof.Machine.execBringupPhase2 badLinks s
  | .bringupPhase3 bootA bootB sameImage => Sys2Proof.Machine.execBringupPhase3 bootA bootB sameImage s
  | .bringupPhase4 badDigest => Sys2Proof.Machine.execBringupPhase4 badDigest s
  | .bringupPhase5 badRouters badLinks badC offsets => Sys2Proof.Machine.execBringupPhase5 badRouters badLinks badC offsets s
  | .bringupPhase6 badDigest => Sys2Proof.Machine.execBringupPhase6 badDigest s
  | .bringupPhase7 votes direct => Sys2Proof.Machine.execBringupPhase7 votes direct s
  | .bringupPhase8 rows cols missed => Sys2Proof.Machine.execBringupPhase8 rows cols missed s
  | .bringupPhase9 badRows badL => Sys2Proof.Machine.execBringupPhase9 badRows badL s
  | .bringupPhase10 badRows badL badPackages => Sys2Proof.Machine.execBringupPhase10 badRows badL badPackages s
  | .bringupPhase11 storedValid => Sys2Proof.Machine.execBringupPhase11 storedValid s
  | .bringupPhase12 elapsedMs => Sys2Proof.Machine.execBringupPhase12 elapsedMs s
  | .testWindowResume panel => Sys2Proof.Machine.execTestWindowResume panel s
  | .contextResetDeadline n => Sys2Proof.Machine.execContextResetDeadline n s
  | .ideStreamEstablished f => Sys2Proof.Machine.execIdeStreamEstablished f s
  | .boltPackageFailed package => Sys2Proof.Machine.execBoltPackageFailed package s
  | .inputPowerOverload avg => Sys2Proof.Machine.execInputPowerOverload avg s
  | .handoverAlarmCapLift panel => Sys2Proof.Machine.execHandoverAlarmCapLift panel s
  | .pcieLinkUp hem width rate => Sys2Proof.Machine.execPcieLinkUp hem width rate s
  | .vfEnable f enable => Sys2Proof.Machine.execVfEnable f enable s
  | .t1sPolarityReversed hem => Sys2Proof.Machine.execT1sPolarityReversed hem s

end Sys2Proof.Machine
end

