-- ==== Sys2Proof/Machine/Idle.lean ====
section
/-! DEFINITION. What one control cycle does when no command waits. -/

namespace Sys2Proof.Machine
open Sys2Proof

/-- One control cycle passes: the clock counts (R639); nothing else is driven by time alone in this model (log 8). -/
def idleCycle (s : State) : State := { s with clock := s.clock + 1 }

end Sys2Proof.Machine
end

