-- ==== Sys2Proof/WellFormed.lean ====
section
/-! DEFINITION. Which commands can be given to the module: their units exist, and their words and lists are of their own row. -/

namespace Sys2Proof
open Sys2Proof.Machine

/-- A node of one of the kinds given (R7, R19). -/
def isNode (ks : List Kind) (n : NodeId) : Bool := nodeExists n && ks.contains (kindOf n)
/-- A V or F core, an M core, an L node, a compute or L node, and any node. -/
def isVec (n : NodeId) : Bool := isNode [.v, .f] n
def isM (n : NodeId) : Bool := isNode [.m] n
def isL (n : NodeId) : Bool := isNode [.l] n
def isWorker (n : NodeId) : Bool := isNode [.m, .v, .f, .l] n
/-- A service input of an L node (R174). -/
def isService (n ep : Nat) : Bool := isL n && decide (ep < 256)
/-- One of the 16 partitions, 42 panels, 26 hems' power branches, 48 Spakan ports (R5, R6, R24, R26). -/
def isPart (p : Nat) : Bool := decide (p < 16)
def isPanel (k : Nat) : Bool := decide (k < 42)
def isPort (k : Nat) : Bool := decide (k < 48)
/-- A VF of the active hem (R533). -/
def isVf (f : Nat) : Bool := decide (f ≠ 0) && decide (f ≤ 16)
/-- Bytes [off, off + len) of a function's BAR4 (R533). -/
def inBar4 (f off len : Nat) : Bool := decide (f ≤ 16) && decide (off + len ≤ if f = 0 then 0x1000000000 else 0x100000000)
/-- A request of the operation its row names, or of none that R500 lists. -/
def isOp (op : Nat) (r : Req) : Bool := whoOk r.who && (r.op.toNat == op || r.op.toNat == 0 || decide (6 < r.op.toNat))
/-- A frame on a Spakan port with the TYPE of its row (R605). -/
def isFrame (ty port : Nat) (f : Frame) : Bool := isPort port && f.ty.toNat == ty
/-- A register of a window: its offset is a multiple of 8 inside it. -/
def RegTarget.wf : RegTarget → Bool
  | .bar2 f off => decide (f ≤ 16 ∧ off % 8 = 0 ∧ off < 0x10000)
  | .bar0 f off => decide (f ≤ 16 ∧ off % 8 = 0 ∧ off < 0x10000)
  | .node n off => decide (nodeExists n ∧ off % 8 = 0 ∧ off < 0x100000)
def FaultCause.wf : FaultCause → Bool
  | .node n => nodeExists n
  | .routerParity r => nodeExists r
  | .link r port => portOk r port && portLeads r port
def Branch.wf : Branch → Bool
  | .panel p => isPanel p
  | .hem h => decide (h < 26) && hemKind h != .blank

/-- The commands that can be given. -/
def Instr.wf (i : Instr) : Bool :=
  match i with
  | .mNop n _ => isM n
  | .group n _ => isM n
  | .pass n _ => isM n
  | .passScan n g => isM n && decide (g ≤ 3)
  | .loopTableToken n loop => isM n && decide (loop < 16)
  | .passIssue n _ => isM n
  | .passComplete n _ => isM n
  | .mDrain n _ => isM n
  | .drainIssue n _ _ => isM n
  | .drainResume n => isM n
  | .tileRelease n => isM n
  | .mRelease n _ => isM n
  | .releaseTakesEffect n => isM n
  | .mMark n _ => isM n
  | .mMarkComplete n => isM n
  | .cuffld n _ => isM n
  | .arrayDiagnostic n rows cols => isM n && (rows ++ cols).all (fun k => decide (k < 520))
  | .ctlNop n _ => isVec n
  | .loopCount n w => isVec n && vImmF w 23 22 == 0
  | .loopLoad n w => isVec n && vImmF w 23 22 == 1
  | .loopRead n w => isVec n && vImmF w 23 22 == 2
  | .loopJump n w => isVec n && vImmF w 23 22 == 3
  | .brtok n _ => isVec n
  | .vMark n _ => isVec n
  | .vMarkComplete n _ _ => isVec n
  | .slot n _ => isVec n
  | .sclAdd n _ => isVec n
  | .sclSub n _ => isVec n
  | .sclMul n _ => isVec n
  | .sclAnd n _ => isVec n
  | .sclOr n _ => isVec n
  | .sclXor n _ => isVec n
  | .sclShl n _ => isVec n
  | .sclShr n _ => isVec n
  | .sclSra n _ => isVec n
  | .movi n _ => isVec n
  | .movhi n _ => isVec n
  | .tintAdd n _ lane => isVec n && laneOk n lane
  | .tintSub n _ lane => isVec n && laneOk n lane
  | .tintMul n _ lane => isVec n && laneOk n lane
  | .mulh n _ lane => isVec n && laneOk n lane
  | .tintAbs n _ => isVec n
  | .tintNeg n _ => isVec n
  | .tintMin n _ => isVec n
  | .tintMax n _ => isVec n
  | .mac n _ lane => isVec n && laneOk n lane
  | .tintSel n _ => isVec n
  | .tlogAnd n _ => isVec n
  | .tlogOr n _ => isVec n
  | .tlogXor n _ => isVec n
  | .tlogNot n _ => isVec n
  | .tlogShl n _ lane => isVec n && laneOk n lane
  | .tlogShr n _ => isVec n
  | .tlogSra n _ => isVec n
  | .srar n _ => isVec n
  | .tfpAdd n _ lane => isVec n && laneOk n lane
  | .tfpSub n _ lane => isVec n && laneOk n lane
  | .tfpMul n _ lane => isVec n && laneOk n lane
  | .fma n _ lane => isVec n && laneOk n lane
  | .tfpMin n _ => isVec n
  | .tfpMax n _ => isVec n
  | .tfpAbs n _ => isVec n
  | .tfpNeg n _ => isVec n
  | .tfpSel n _ => isVec n
  | .cvt n _ => isVec n
  | .cvtmx n w => isVec n && !bit w 4
  | .cvtmxSquare n w => isVec n && bit w 4
  | .tcmpEq n _ => isVec n
  | .tcmpNe n _ => isVec n
  | .tcmpLt n _ => isVec n
  | .tcmpLe n _ => isVec n
  | .tcmpGt n _ => isVec n
  | .tcmpGe n _ => isVec n
  | .pand n _ => isVec n
  | .por n _ => isVec n
  | .pnot n _ => isVec n
  | .popc n _ => isVec n
  | .compress n _ => isVec n
  | .expand n _ => isVec n
  | .trans n _ => isVec n
  | .bcast n _ => isVec n
  | .rowb n _ => isVec n
  | .rsum n _ => isVec n
  | .rmax n _ => isVec n
  | .rmin n _ => isVec n
  | .ldt n _ _ => isVec n
  | .stt n _ => isVec n
  | .lds n _ _ => isVec n
  | .sts n _ => isVec n
  | .send n _ _ => isVec n
  | .sendProceeds n => isVec n
  | .sendtok n _ => isVec n
  | .recv n w => isVec n && !bit w 9
  | .recvRelonly n w => isVec n && bit w 9
  | .recvany n _ => isVec n
  | .recvCompletes n => isVec n
  | .kntArrive n _ => isVec n
  | .kntAdd n _ => isVec n
  | .kntWait n _ => isVec n
  | .kntReset n _ => isVec n
  | .knotReply p => placeOk p
  | .exp2 n _ _ => isVec n
  | .log2 n _ _ => isVec n
  | .rcp n _ _ => isVec n
  | .rsqrt n _ _ => isVec n
  | .sin n _ _ => isVec n
  | .cos n _ _ => isVec n
  | .tanh n _ _ => isVec n
  | .erf n _ _ => isVec n
  | .smx n _ _ => isVec n
  | .smn n _ _ => isVec n
  | .smerge n _ _ => isVec n
  | .topk n _ _ => isVec n
  | .sort n _ _ => isVec n
  | .sample n _ _ => isVec n
  | .recordArrival p => placeOk p
  | .creditArrival p => placeOk p
  | .creditReturnTimeout n ep => isWorker n && decide (ep < epCount n)
  | .nackArrival p => placeOk p
  | .knotArriveReq n => isL n
  | .knotAddReq n => isL n
  | .knotWaitReq n => isL n
  | .knotResetReq n => isL n
  | .knotRetryResend p => placeOk p
  | .stepCommitArrival p => placeOk p
  | .stepVetoReport p => isPart p
  | .timingReportReceipt => true
  | .seamOrderArrival n => isWorker n
  | .stopStep n => isWorker n
  | .stopHold n => isWorker n
  | .stopRelease n => isWorker n
  | .flitReceive r port _ _ _ => linkOk r port
  | .nakReceive r port _ => linkOk r port
  | .linkIdleTimeout r port => linkOk r port
  | .nullKeepalive r port => portOk r port
  | .wardenLinkDown r port => linkOk r port
  | .linkRetrain r port _ => linkOk r port
  | .packetForward _ => true
  | .multicastForward _ => true
  | .budgetWindowStart r => nodeExists r
  | .telemetryWindowEnd panel sums => isPanel panel && sums.all (fun x => nodeExists x.1 && panelOf x.1 == panel)
  | .linkHoldEnd panel => isPanel panel
  | .readReq p _ _ => placeOk p
  | .writeReq p => placeOk p
  | .readResp p => placeOk p
  | .writeAck p => placeOk p
  | .pttEntryFetched p q _ => placeOk p && isPart q
  | .loadChunk n _ _ _ _ _ => nodeExists n
  | .loadChunkTimeout n _ => nodeExists n
  | .loadBarrierRelease => true
  | .srvRead n ep _ _ => isService n ep
  | .hint n ep => isService n ep
  | .stepEnd n ep => isService n ep
  | .lMarkComplete n => isL n
  | .append n ep => isService n ep
  | .replace n ep => isService n ep
  | .promotionComplete n _ _ => isL n
  | .demotionComplete n _ => isL n
  | .patrolScrub n _ _ _ => isL n
  | .unmap p _ => isPart p
  | .releaseScrubComplete p => isPart p
  | .faultNotification c => c.wf
  | .faultEventReceipt => true
  | .faultMapFlashWrite _ => true
  | .patrolStart panel _ _ => isPanel panel
  | .patrolDefer n => isVec n
  | .pressureMove p => isPart p
  | .stewardHeartbeat => true
  | .journalEntry => true
  | .standbyTakeover => true
  | .hangWindowExpiry panel p => isPanel panel && isPart p
  | .quietReceipt p => isPart p
  | .contextWatchFire p => isPart p
  | .nodeResetDeadline n => nodeExists n
  | .partitionResetWaitEnd p => isPart p
  | .partitionResetDeadline p => isPart p
  | .moduleResetDeadline => true
  | .watchdogStroke => true
  | .hemWatchdogExpiry h => isHostHem h
  | .stateScanOut n => isWorker n
  | .scanIn n => isWorker n
  | .mbxDoorbell f => decide (f ≤ 16)
  | .dictRead r => isOp 1 r
  | .dictWrite r => isOp 2 r
  | .writeStaged r => isOp 3 r
  | .commit r => isOp 4 r && (r.op != 4 || fld r.flags 6 5 == 0)
  | .commitDiscard r => isOp 4 r && (r.op != 4 || bit r.flags 5)
  | .commitDryrun r => isOp 4 r && (r.op != 4 || (bit r.flags 6 && !bit r.flags 5))
  | .configActivate p => isPart p
  | .execute r => isOp 5 r
  | .segment r => isOp 6 r
  | .domainTransferTimeout _ => true
  | .stageTimeout => true
  | .dictQueueTimeout => true
  | .neighbourSolicitation hem _ => isHostHem hem
  | .moduleRequestReady h => whoOk h.who
  | .moduleRequestSafe h => whoOk h.who
  | .moduleRequestService h => whoOk h.who
  | .start h _ => whoOk h.who
  | .pause h _ => whoOk h.who
  | .resume h _ => whoOk h.who
  | .unload h _ => whoOk h.who
  | .forceSeam h _ => whoOk h.who
  | .imageLoad h _ _ => whoOk h.who
  | .armBarrierComplete p => isPart p
  | .tenantSeed h _ _ => whoOk h.who
  | .bobbinOpen h _ => whoOk h.who
  | .bobbinClose h _ => whoOk h.who
  | .bobbinDemoteAll h _ => whoOk h.who
  | .bobbinPromoteAll h _ => whoOk h.who
  | .fenceNode h _ => whoOk h.who
  | .retestNode h _ _ => whoOk h.who
  | .resetNode h _ => whoOk h.who
  | .resetCluster h _ => whoOk h.who
  | .resetPartition h _ => whoOk h.who
  | .resetModule h _ => whoOk h.who
  | .counterClear h _ => whoOk h.who
  | .attest h _ => whoOk h.who
  | .keyDeliver h p _ => whoOk h.who && isPart p
  | .keyRotate h p _ => whoOk h.who && isPart p
  | .walkerPageMove p => isPart p
  | .debugClassRaise h c _ => whoOk h.who && decide (c < 168)
  | .debugClassLower h c _ => whoOk h.who && decide (c < 168)
  | .reseal h _ => whoOk h.who
  | .fwUpdate h _ _ _ => whoOk h.who
  | .fwActivateInPlace h _ => whoOk h.who
  | .fwActivateByReset h => whoOk h.who
  | .acceptBelowGrade h _ => whoOk h.who
  | .serviceTest h _ _ _ _ => whoOk h.who
  | .panelRequest h _ _ => whoOk h.who
  | .powerLimit h _ => whoOk h.who
  | .twinPair h _ => whoOk h.who
  | .twinDetach h _ => whoOk h.who
  | .registerWrite t _ => t.wf
  | .sqTailWrite f ring _ _ => ringOk f ring
  | .sqNop f ring => ringOk f ring
  | .input f ring _ => ringOk f ring
  | .copyIn f ring _ => ringOk f ring
  | .copyOut f ring => ringOk f ring
  | .import' f ring _ => ringOk f ring
  | .sqImage f ring _ => ringOk f ring
  | .sqKnotArrive f ring => ringOk f ring
  | .sqKnotAdd f ring => ringOk f ring
  | .sqKnotWait f ring => ringOk f ring
  | .sqKnotReset f ring => ringOk f ring
  | .stepwait f ring => ringOk f ring
  | .cqHeadWrite f ring _ => ringOk f ring
  | .ringCfgWrite f ring _ => ringOk f ring
  | .outReadWrite f p _ => decide (f ≤ 16) && (outIndex f p).isSome
  | .outputRecordWrite p => isPart p
  | .bar4Read f off len => inBar4 f off len
  | .bar4Write f off data => inBar4 f off data.length
  | .takeover _ => true
  | .pcieL0LossTimeout => true
  | .functionLevelResetVf f => isVf f
  | .functionLevelResetPf0 => true
  | .perstN hem _ => isHostHem hem
  | .hello port f _ => isFrame fHello port f
  | .proof port f => isFrame fProof port f
  | .pairingTimeout => true
  | .heartbeatSend => true
  | .heartbeat port f => isFrame fHeartbeat port f
  | .ack port f => isFrame fAck port f
  | .ackTimer _ => true
  | .resendTimer _ => true
  | .appendFrame port f => isFrame fAppend port f
  | .inputFrame port f => isFrame fInput port f
  | .endFrame port f => isFrame fEnd port f
  | .durable port f => isFrame fDurable port f
  | .commitFrame port f => isFrame fCommit port f
  | .fetch port f => isFrame fFetch port f
  | .page port f => isFrame fPage port f
  | .digest port f => isFrame fDigest port f
  | .exchange port f => isFrame fExchange port f
  | .spakanMgmt port f => isFrame fMgmt port f
  | .relayForward port _ => isPort port
  | .relayExpiry port => isPort port
  | .twinTimeout => true
  | .spakanLinkTraining port _ _ _ _ _ => isPort port
  | .spakanLinkIdleTimeout port => isPort port
  | .spakanRetrain port => isPort port
  | .pwrEnAssert conn => decide (conn < 2)
  | .pwrEnDeassert conn => decide (conn < 2)
  | .pwrEnMismatch => true
  | .connectorUndervoltage c => decide (c < 4)
  | .connectorOvervoltage c => decide (c < 4)
  | .connectorReversed c => decide (c < 4)
  | .connectorRequalified c => decide (c < 4)
  | .branchFuseOpen b => b.wf
  | .sensePairFault c _ => decide (c < 4)
  | .refclockLost => true
  | .limiterRun _ branch => branch.all (fun b => isPanel b.1)
  | .thermalSensorRead panel _ _ => isPanel panel
  | .thermalComparatorPark panel => isPanel panel
  | .voltageLoop panel _ => isPanel panel
  | .coolantInletHigh _ => true
  | .tackPress conn => decide (conn < 2)
  | .tackHeld conn => decide (conn < 2)
  | .tackWindowExpiry => true
  | .serviceJumper _ => true
  | .selvageMeasure _ _ => true
  | .selvageBreak => true
  | .bringupPhase1 _ badPanels => badPanels.all isPanel
  | .bringupPhase2 badLinks => badLinks.all (fun e => linkOk e.1 e.2)
  | .bringupPhase3 _ _ _ => true
  | .bringupPhase4 badDigest => badDigest.all nodeExists
  | .bringupPhase5 badRouters badLinks badC _ => (badRouters ++ badC).all nodeExists && badLinks.all (fun e => linkOk e.1 e.2)
  | .bringupPhase6 badDigest => badDigest.all nodeExists
  | .bringupPhase7 votes direct => votes.all (fun e => nodeExists e.1 && nodeExists e.2.1) && direct.all (fun e => nodeExists e.1)
  | .bringupPhase8 rows cols missed => (rows ++ cols).all (fun e => nodeExists e.1 && e.2.all (fun k => decide (k < 520))) && missed.all nodeExists
  | .bringupPhase9 badRows badL =>
    badRows.all (fun e => nodeExists e.1 && decide (e.2.1 < padBytes e.1 / 0x100000) && decide (e.2.2 < 1024)) && badL.all nodeExists
  | .bringupPhase10 badRows badL badPackages =>
    badRows.all (fun e => nodeExists e.1) && badL.all nodeExists && badPackages.all (fun p => decide (p < 128))
  | .bringupPhase11 _ => true
  | .bringupPhase12 _ => true
  | .testWindowResume panel => isPanel panel
  | .contextResetDeadline n => isWorker n
  | .ideStreamEstablished f => decide (f ≤ 16)
  | .boltPackageFailed package => decide (package < 128)
  | .inputPowerOverload _ => true
  | .handoverAlarmCapLift panel => isPanel panel
  | .pcieLinkUp hem width _ => isHostHem hem && [1, 2, 4, 8, 16].contains width
  | .vfEnable f _ => isVf f
  | .t1sPolarityReversed hem => isHostHem hem

end Sys2Proof
end

