-- ==== Sys2Proof/Safety.lean ====
section
/-! DEFINITION. The terms that statements are made in: when a command may act, what it leaves alone, and what a good state is. -/

namespace Sys2Proof.Machine
open Sys2Proof

/-- Every node but n is as before. -/
def otherNodes (n : NodeId) (s t : State) : Prop := ∀ m, m ≠ n → t.node m = s.node m
/-- Nothing of the machine differs but node n. -/
def onlyNode (n : NodeId) (s t : State) : Prop := t = { s with nodes := t.nodes } ∧ otherNodes n s t
/-- Packets put into the fabric at a router, oldest first, by route header, payload bits and data; those before stay. -/
def injects (r : NodeId) (l : List (U128 × U128 × List Byte)) (s t : State) : Prop :=
  ∃ ks : List Packet, t.flight = s.flight ++ ks ∧ ks.map (fun k => (k.route, k.pay, k.data)) = l ∧
    ∀ k ∈ ks, k.at' = r ∧ k.out = none ∧ k.aborted = false

/-- Element i of a tile's view of width w (R112). -/
def element (w : Nat) (t : Tile) (i : Nat) : Nat := (t.toNat >>> (w * i)) % 2 ^ w
/-- Element i of a view of width w is active under a predicate tile (R113). -/
def active (w : Nat) (p : Pred) (i : Nat) : Bool := p.getLsbD (i * (w / 8))
/-- Element i of a view of width w is written under PEN and PRED (R117). -/
def written (w : Nat) (word : VWord) (c : Core) (i : Nat) : Bool := !vPen word || active w (c.pred (vPred word)) i

/-- The V or F core n may issue the instruction at its program index (R114, R151, R221, R404). -/
def vReady (n : NodeId) (s : State) : Prop :=
  isVec n = true ∧ (s.node n).canIssue = true ∧ (s.node n).core.pc.toNat < (s.node n).pat.progLen (s.node n).pat.active

/-- An instruction of core n retires: the program goes on at `next`, and k core cycles of work and one instruction are counted
(R111, R231, R253). -/
def retires (n : NodeId) (k : Nat) (next : U16) (s t : State) : Prop :=
  let a := s.node n
  let b := t.node n
  b.core.pc = next ∧ b.core.issueCycles = satAdd a.core.issueCycles k ∧ b.core.retired = satAdd a.core.retired 1 ∧
  b.core.blocked = none ∧ b.pat = { a.pat with runWork := satAdd a.pat.runWork k, runInstr := satAdd a.pat.runInstr 1 }
/-- The index after an instruction. -/
def nextPc (n : NodeId) (s : State) : U16 := (s.node n).core.pc + 1
/-- Nothing differs but node n's core and pattern registers. -/
def onlyCore (n : NodeId) (s t : State) : Prop :=
  onlyNode n s t ∧ t.node n = { s.node n with core := (t.node n).core, pat := (t.node n).pat }
/-- Of a core nothing but its register files, its program index and what issuing counts differs. -/
def onlyFiles (c d : Core) : Prop :=
  d = { c with tiles := d.tiles, scalars := d.scalars, preds := d.preds, pc := d.pc, issueCycles := d.issueCycles, retired := d.retired, blocked := d.blocked }
/-- Every tile, scalar or predicate register but those named is as before. -/
def sameTiles (but : List Nat) (c d : Core) : Prop := ∀ r, r < 16 → r ∉ but → d.tile r = c.tile r
def sameScalars (but : List Nat) (c d : Core) : Prop := ∀ r, r < 32 → r ∉ but → d.scalar r = c.scalar r
def samePreds (but : List Nat) (c d : Core) : Prop := ∀ r, r < 8 → r ∉ but → d.pred r = c.pred r

/-- A value brought into an element of an integer ETYPE: clamped with SAT, modulo 2^w without (R120). -/
def inElement (et : Nat) (sat : Bool) (v : Int) : Nat :=
  ((if sat then max (elMin et) (min (elMax et) v) else v) % 2 ^ etW et).toNat
/-- A tile instruction of core n whose element i of the destination is `res i` where it is written; `ev i` counts it in SAT_EVENTS (R117, R119, R121). -/
def tileResult (n : NodeId) (word : VWord) (w occ : Nat) (res : Nat → Nat) (ev : Nat → Bool) (s t : State) : Prop :=
  let c := (s.node n).core
  let d := (t.node n).core
  retires n (if kindOf n = .f then 4 * occ else occ) (nextPc n s) s t ∧ onlyCore n s t ∧
  d = { c with tiles := d.tiles, pc := d.pc, issueCycles := d.issueCycles, retired := d.retired
               satEvents := satAdd c.satEvents ((List.range (32768 / w)).countP (fun i => written w word c i && ev i)) } ∧
  sameTiles [vD word % 16] c d ∧
  ∀ i, i < 32768 / w → element w (d.tile (vD word)) i = if written w word c i then res i else element w (c.tile (vD word)) i

/-- The byte at an address of a scratchpad as a read sees it (R164). -/
def Pad.byteAt (p : Pad) (a : Nat) : Byte := if p.valid.contains (a / 64) then Memory.byte p.bytes a else 0
/-- Nothing differs but node n's core, scratchpad bytes and pattern registers; the scratchpad's tags, owners and counters are as before. -/
def onlyCoreAndBytes (n : NodeId) (s t : State) : Prop :=
  onlyNode n s t ∧ t.node n = { s.node n with
    core := (t.node n).core, pat := (t.node n).pat
    pad := { (s.node n).pad with bytes := (t.node n).pad.bytes, valid := (t.node n).pad.valid, bad := (t.node n).pad.bad } }
/-- Every scratchpad byte of node n outside [a, a + len) reads as before. -/
def bytesKept (n a len : Nat) (s t : State) : Prop :=
  ∀ b, (b < a ∨ a + len ≤ b) → (t.node n).pad.byteAt b = (s.node n).pad.byteAt b
/-- n bytes from an address read as a list. -/
def bytesAre (n a : Nat) (bs : List Byte) (t : State) : Prop := ∀ i, i < bs.length → (t.node n).pad.byteAt (a + i) = bs.getD i 0

/-- A record handed to an output endpoint of node n that has its credit: it goes out behind a skip marker where it does not fit, and the end
counts it (R181, R184, R185, R191, R197). -/
def accepted (n ep : Nat) (r : OutRec) (s t : State) : Prop :=
  let o := (s.node n).outEp ep
  let o' := (t.node n).outEp ep
  let hdr := mkHdr o.seq.toNat ep (nx n) (ny n) (s.node n).pat.ctag r
  let route (k : Nat) : U128 := mkRoute n (outDest s n o.desc) (outWay o.desc) tyRecord 0 ((s.node n).part.getD 16) (flitsOf k)
  let ring := outMode o.desc = 1
  let size := 4096 * outSize o.desc
  let sz := recBytes r.data.length
  let tail := size - o.ptr
  (∃ mark : U128, rhKind mark = 2 ∧ injects n ((if ring ∧ tail < sz then [(route 0, mark, [])] else []) ++ [(route r.data.length, hdr, r.data)]) s t) ∧
  t = { s with nodes := t.nodes, flight := t.flight, nextPid := t.nextPid } ∧ otherNodes n s t ∧
  t.node n = { s.node n with core := (t.node n).core, pat := (t.node n).pat, outs := (t.node n).outs } ∧
  (∀ e, e ≠ ep → (t.node n).outEp e = (s.node n).outEp e) ∧
  o'.desc = o.desc ∧ o'.seq = o.seq + 1 ∧ o'.msgs = satAdd o.msgs 1 ∧ o'.bytes = satAdd o.bytes r.data.length ∧
  o'.tokens = (if r.kind = 1 then satAdd o.tokens 1 else o.tokens) ∧ o'.broken = false ∧ o'.letout = false ∧
  o'.skips = (if ring ∧ tail < sz then satAdd o.skips 1 else o.skips) ∧
  o'.credit = (if ring then o.credit - (if tail < sz then tail + sz else sz) else if isNotified r then o.credit - 1 else o.credit) ∧
  o'.ptr = (if ring then (if tail < sz then sz else if o.ptr + sz = size then 0 else o.ptr + sz) else o.ptr)

/-- A record returned by RECV: its payload address, then its descriptor word, in two scalars; the record counts as returned (R195). -/
def received (n ep d b i : Nat) (r : ChanRec) (s t : State) : Prop :=
  ((t.node n).inEp ep).returned = i + 1 ∧ (t.node n).core.scalar b = recvWord r.hdr ∧
  (d ≠ b → (t.node n).core.scalar d = BitVec.ofNat 64 r.addr) ∧ ((t.node n).inEp ep).recs = ((s.node n).inEp ep).recs

/-- The M core n may take a tile command: its sequencer runs in a step, its window has room and holds no MARK, and no loop waits (R71, R87, R227). -/
def mReady (n : NodeId) (s : State) : Prop :=
  let nd := s.node n
  isM n = true ∧ nd.live = true ∧ nd.mc.run = true ∧ nd.pat.phase = .inStep ∧ nd.mc.window.length < 16 ∧ nd.mc.loopWait = none ∧
  ∀ c ∈ nd.mc.window, fld c.word 127 124 ≠ 5

/-- Nothing of the machine differs but node n, the fabric's packets, and what the model keeps of node n's partition. -/
def onlyNodeAndFlight (n : NodeId) (s t : State) : Prop :=
  t = { s with nodes := t.nodes, flight := t.flight, nextPid := t.nextPid, parts := t.parts } ∧ otherNodes n s t ∧
  ∀ q, (s.node n).part ≠ some q → t.part q = s.part q

/-- Of a place's packets one has been taken, the first that `p` holds of (R373, R391). -/
def takes (at' : Place) (p : Packet → Bool) (k : Packet) (s s1 : State) : Prop :=
  ∃ l r, s.flight = l ++ k :: r ∧ s1 = { s with flight := l ++ r } ∧ k.out = some at' ∧ p k = true ∧ ∀ x ∈ l, ¬ (x.out = some at' ∧ p x = true)
/-- One packet follows those in flight: from router r to node d, of a type and an owner, with the payload bits and data given. -/
def sends (r : NodeId) (ty owner : Nat) (d : NodeId) (pay : U128) (data : List Byte) (s t : State) : Prop :=
  ∃ k : Packet, t.flight = s.flight ++ [k] ∧ k.at' = r ∧ k.out = none ∧ k.aborted = false ∧ k.pay = pay ∧ k.data = data ∧
    k.route = mkRoute r ⟨d, 0⟩ (detourWay s r d owner) ty 0 owner (flitsOf data.length)

/-- What stands at node n once step t0 has ended there and the next begun, with `extra` cycles of work and instructions for its MARK
(R229 to R231, R236). -/
def stepEnded (n : NodeId) (extra : Nat) (s t : State) : Prop :=
  let a := s.node n
  let b := t.node n
  let step := a.pat.current.toNat
  b.pat.current = BitVec.ofNat 32 (step + 1) ∧ b.pat.phase = .inStep ∧ b.pat.veto = false ∧ b.pat.active = b.pat.home ∧
  b.pat.committed = a.pat.committed ∧ b.pat.stepWork = satAdd a.pat.runWork extra ∧ b.pat.stepInstr = satAdd a.pat.runInstr extra ∧
  b.pat.rates = a.pat.runRates ∧ b.pat.runWork = 0 ∧ b.pat.runInstr = 0 ∧ b.pat.runRates = [] ∧ b.halted = a.halted ∧ b.fault = a.fault ∧
  (∀ p, a.part = some p → let ks := (s.part p).pl.stepKnots
    let knot := if step % 2 = 0 then ks.1 else ks.2
    ∃ k : Packet, t.flight.getLast? = some k ∧ rtType k.route = tyKnot ∧ k.at' = n ∧
      k.pay = if a.pat.veto then knotPay 2 p knot 255 n 0 0x00010001 0 else knotPay 1 p knot 255 n 0 0 0)
/-- A V or F core as step k begins on a pattern's home slot (R219, R223, R231). -/
def freshCore (c : Core) (p : Pat) (k : Nat) : Prop :=
  c.tiles = [] ∧ c.preds = [] ∧ (∀ r, r < 32 → c.scalar r = if r = 31 then BitVec.ofNat 64 k else 0) ∧
  (∀ i, i < 16 → c.counter i = BitVec.ofNat 32 (p.hdr p.home (32 + 4 * i) 4) ∧ c.reload i = BitVec.ofNat 32 (p.hdr p.home (32 + 4 * i) 4)) ∧
  c.pc = BitVec.ofNat 16 (p.entry p.home) ∧ c.blocked = none
/-- An M sequencer as a step begins on a pattern's home slot (R226, R231). -/
def freshSeq (m : MCore) (p : Pat) : Prop :=
  m.window = [] ∧ m.groups = [] ∧ m.planes = [] ∧ m.flights = [] ∧ m.drains = [] ∧ m.ftqUsed = 0 ∧ m.maskUsed = 0 ∧ m.cuffs = [] ∧
  m.shadow = false ∧ m.lastPass = none ∧ m.passSeq = 0 ∧
  ((loopTable p p.home).all (fun e => e.first != p.entry p.home) = true → m.fetch = p.entry p.home ∧ m.loopWait = none)

/-- An entry of a ring of the active hem completes (R542, R546): its completion entry is written at CQ_TAIL, or waits behind others while the
completion ring is full. -/
def completes (f r : Nat) (e : SqEntry) (status result : Nat) (s t : State) : Prop :=
  let x := s.ring f r
  let y := t.ring f r
  let next := (x.cqTail + 1) % x.cqSize
  (next = x.cqHead → y.comps = x.comps ++ [(e.tag.toNat, status, result, bit e.flags 1)] ∧ y.cqTail = x.cqTail ∧ t.hostMem = s.hostMem) ∧
  (next ≠ x.cqHead → x.comps = [] → y.comps = [] ∧ y.cqTail = next ∧ y.phase = (if next = 0 then !x.phase else x.phase) ∧
    t.hostMem = s.hostMem.write (x.cqBase.toNat + 16 * x.cqTail)
      (leBytes 4 e.tag.toNat ++ leBytes 4 status ++ leBytes 4 result ++ leBytes 2 x.sqHead ++ [BitVec.ofNat 8 r, if x.phase then 1 else 0]))

/-- Nothing of the machine differs but one port of a router, and, where `rest` allows it, what else of that router it names. -/
def onlyRouter (r : NodeId) (s t : State) : Prop := t = { s with routers := t.routers } ∧ ∀ x, x ≠ r → t.router x = s.router x
def onlyPort (r port : Nat) (s t : State) : Prop :=
  onlyRouter r s t ∧ t.router r = { s.router r with ports := (t.router r).ports } ∧ ∀ p, p ≠ port → (t.router r).port p = (s.router r).port p
/-- A mesh port, or one that faces a hem (R352). -/
def isLink (r port : Nat) : Prop := nodeExists r = true ∧ port < 4 ∧ portLeads r port = true
/-- A packet in the fabric, the only one of its number, that its router takes next (R369, R378). -/
def atRouter (k : Packet) (s : State) : Prop :=
  s.flight.find? (fun x => x.id == k.id) = some k ∧ (∀ x ∈ s.flight, x.id = k.id → x = k) ∧ k.out = none ∧ behindOther s k = false ∧
  (s.router k.at').dead = false ∧ typeKnown (rtType k.route) = true

/-- A serving L node has one data record waiting on a service input, long enough for its OP, with the payload d (R296 to R298, R679). -/
def serving (n : NodeId) (ep : Nat) (d : List Byte) (s : State) : Prop :=
  let nd := s.node n
  isL n = true ∧ ep < 256 ∧ nd.live = true ∧ (nd.pat.phase = .inStep ∨ nd.pat.phase = .waitCommit) ∧ streamRole nd.pat ep = 1 ∧ ep ∉ nd.ln.stepEnds ∧
  ∃ r : ChanRec, (nd.inEp ep).recs = [r] ∧ rhKind r.hdr = 0 ∧ d = nd.pad.read r.addr (rhLen r.hdr)
/-- The record has been served: it is released, and the node goes on (R192, R299). -/
def served (n ep : Nat) (s t : State) : Prop :=
  ((t.node n).inEp ep).recs = [] ∧ (t.node n).halted = (s.node n).halted ∧ (t.node n).fault = (s.node n).fault ∧ (t.node n).core = (s.node n).core ∧
  (t.node n).mc = (s.node n).mc ∧ otherNodes n s t
/-- The record raises a fault of the L node and stays (R315, R316). -/
def serviceFault (n ep code : Nat) (x : Instr) (s : State) : Prop :=
  bit (s.node n).fault 63 = false → ∃ t, exec x s = .next t ∧ otherNodes n s t ∧ (t.node n).halted = true ∧ (t.node n).pat.veto = true ∧
    bit (t.node n).fault 63 = true ∧ fld (t.node n).fault 7 0 = code ∧ ((t.node n).inEp ep).recs = ((s.node n).inEp ep).recs ∧ t.lining = s.lining

/-- Nothing keeps the steward from serving a request: it has not been answered, and it is not under way (R496, R500, R503). -/
def freshReq (who : Requester) (seq : U32) (s : State) : Prop :=
  whoOk who = true ∧ serves s who = true ∧ (∀ e ∈ s.stw.d.store, e.1 = who → e.2.1 ≠ seq.toNat) ∧ ∀ a ∈ s.stw.d.awaiting, a.who = who → a.seq ≠ seq.toNat
/-- A response has left for its requester and is kept for retries (R498, R500 to R504). -/
def answered (who : Requester) (seq : U32) (op flags index sub : Nat) (data : List Byte) (t : State) : Prop :=
  let resp := respHead op flags seq.toNat index sub data.length ++ data
  (who, seq.toNat, resp) ∈ t.stw.d.store ∧ match who with
    | .segment .. => (who, resp) ∈ t.stw.d.replies
    | .function f => (t.fn f).mbxResp = resp ∧ bit (t.fn f).mbxStatus 63 = true ∧ bit (t.fn f).mbxStatus 62 = false ∧ 0 ∈ (t.fn f).raised
/-- t is u but for answers, requests still under way and the journal (R434, R500, R503), and the free values drawn (log 1). -/
def answersOnly (u t : State) : Prop :=
  t = { u with
    free := t.free
    stw := { u.stw with
      journal := t.stw.journal
      d := { u.stw.d with store := t.stw.d.store, replies := t.stw.d.replies, queue := t.stw.d.queue, awaiting := t.stw.d.awaiting } }
    hemA := { u.hemA with fns := t.hemA.fns }, hemB := { u.hemB with fns := t.hemB.fns } }
/-- A WRITE or EXECUTE of an object that its requester, its access and the module's state allow (R507 to R509, R523, R524). -/
def mayAct (h : ReqHdr) (index sub : Nat) (s : State) : Prop :=
  freshReq h.who h.seq s ∧ ∃ o, objAt index sub = some o ∧ writeRefused s h.who o sub = 0
def opOf (h : ReqHdr) : Nat := if h.execute then 5 else 2
/-- It succeeded: an EXECUTE's answer carries a payload (R500, R502). -/
def acted (h : ReqHdr) (index sub : Nat) (data : List Byte) (t : State) : Prop := answered h.who h.seq (opOf h) 1 index sub (if h.execute then data else []) t
/-- It was refused with an abort code, and nothing else has changed (R502, R509). -/
def turnedAway (h : ReqHdr) (index sub code : Nat) (s t : State) : Prop := answered h.who h.seq (opOf h) 3 index sub (leBytes 4 code) t ∧ answersOnly s t
/-- It has begun: a WRITE is answered, an EXECUTE waits for what the action does (R500). -/
def underWay (h : ReqHdr) (index sub part : Nat) (want : List Nat) (t : State) : Prop :=
  if h.execute then (⟨h.who, h.seq.toNat, index, sub, part, want⟩ : Await) ∈ t.stw.d.awaiting else acted h index sub [] t
/-- A datagram of an operation that the steward carries out (R499 to R501). -/
def mayServe (op : Nat) (r : Req) (s : State) : Prop :=
  freshReq r.who r.seq s ∧ r.op.toNat = op ∧ r.runt = false ∧ dropped r = false ∧ malformed r = false

/-- An entry at the front of a ring that may start: its partition is defined, no FENCE holds it, and nothing behind it completes by itself (R533, R543 to R545). -/
def mayStart (f r : Nat) (e : SqEntry) (rest : List SqEntry) (s : State) : Prop :=
  ringOk f r = true ∧ (s.ring f r).waiting = e :: rest ∧ (bit e.flags 0 = true → (s.ring f r).started = []) ∧ (s.cfg (ringPart f (s.ring f r))).defined = true ∧
  e.op.toNat ≤ 7 ∧ ∀ x ∈ rest, x.op.toNat ≤ 7
/-- It has left the queue and completed (R544, R546). -/
def finished (f r : Nat) (e : SqEntry) (rest : List SqEntry) (status result : Nat) (s t : State) : Prop :=
  completes f r e status result s t ∧ (t.ring f r).waiting = rest ∧ (t.ring f r).started = (s.ring f r).started
/-- It has left the queue and completes later (R544). -/
def begun (f r : Nat) (e : SqEntry) (rest : List SqEntry) (data : List Byte) (s t : State) : Prop :=
  (t.ring f r).waiting = rest ∧ (t.ring f r).started = (s.ring f r).started ++ [(e, data)] ∧ (t.ring f r).comps = (s.ring f r).comps ∧ t.hostMem = s.hostMem

/-- A frame of a type has come on a port that is UP and is for this module (R602, R605, R608). -/
def arrives (ty port : Nat) (f : Frame) (s : State) : Prop :=
  port < 48 ∧ f.ty.toNat = ty ∧ s.pow.on = true ∧ (s.spPort port).state = 2 ∧ isLocal s f.dst = true
/-- Nothing differs but the twin record, and the free values drawn. -/
def onlyTwin (s t : State) : Prop := t = { s with twin := t.twin, free := t.free }
/-- Frames of these types and contents follow those sent on a port (R605, R606). -/
def emits (port : Nat) (l : List (Nat × List Byte)) (s t : State) : Prop :=
  ∃ fs : List Frame, (t.spPort port).sent = (s.spPort port).sent ++ fs.map (fun g => (1, g)) ∧ fs.map (fun g => (g.ty.toNat, g.data)) = l ∧
    ∀ g ∈ fs, g.src = s.twin.addr

/-- A frame of a numbered stream has come from the twin with pairing in force (R604, R607, R616). -/
def fromPeer (ty port : Nat) (f : Frame) (s : State) : Prop := arrives ty port f s ∧ twinLinked s = true ∧ fromTwin s port f = true
/-- It is the next of its stream, for partition p here, and its payload opens to d; no ACK is due with it (R607, R622). -/
def inOrder (ty port : Nat) (f : Frame) (p : Nat) (d : List Byte) (s : State) : Prop :=
  let x := s.stream f.stream.toNat
  fromPeer ty port f s ∧ x.expect = f.eseq.toNat ∧ x.held = [] ∧ x.sinceAck < 63 ∧ partnerOf s (f.stream.toNat / 256) = some p ∧ openFrame s p f = some d
/-- What any frame from the twin leaves (R623), and what the delivery of one leaves (R607). -/
def heard (s : State) : State := { s with twin := { s.twin with lastTwin := s.clock } }
def delivered (f : Frame) (s : State) : State := (heard s).updStream f.stream.toNat (fun x => { x with expect := x.expect + 1, sinceAck := x.sinceAck + 1 })

/-- A power event is the newest of the log, which keeps 256 (R635, R657). -/
def records (code subject : Nat) (s t : State) : Prop :=
  t = { s with pow := { s.pow with events := t.pow.events } } ∧ t.pow.events.getLast? = some ⟨code, subject, s.clock⟩ ∧
  t.pow.events.dropLast = s.pow.events.drop (s.pow.events.length - 255)
/-- The power alarm has been raised at t: every warden with a panel in RUN or THROTTLE has capped its core divider (R650). -/
def alarmed (s t : State) : Prop :=
  t.pow.alarm = true ∧ (∃ e ∈ t.pow.events, e.code = 0x0E ∧ e.time = s.clock) ∧ ∀ k, k < 42 →
    let x := s.panel k
    let cap := max x.cap (if connectorLimit t ≤ 12000 then 8 else slowerDiv x.core)
    (2 ≤ x.state → t.panel k = x) ∧
    (x.state < 2 → (t.panel k).cap = cap ∧ (t.panel k).alarmCap = true ∧ (t.panel k).core = max (gradeDivider s.brg.grade) (max x.thermal cap) ∧ (t.panel k).thermal = x.thermal)
/-- No partition runs on a panel. -/
def panelIdle (s : State) (k : Nat) : Prop := ∀ p, p < 16 → (s.part p).state = .running → ∀ n ∈ s.region p, panelOf n ≠ k
/-- A panel is parked at t (R639, R653). -/
def parkedAt (k : Nat) (s t : State) : Prop :=
  (t.panel k).state = 2 ∧ (t.panel k).fabric = 8 ∧ (∀ n ∈ panelNodes k, kindOf n ≠ .c → (t.node n).parked = true) ∧
  (∀ n, panelOf n ≠ k → t.node n = s.node n) ∧ (∀ q, q ≠ k → t.panel q = s.panel q) ∧ t.parts = s.parts ∧ t.lining = s.lining

/-- Bring-up stands in a phase; for the test phases, with every panel in the test window and none that waits for it (R464, R474). -/
def standsIn (n : Nat) (s : State) : Prop := s.pow.on = true ∧ s.brg.phase = n
def testsIn (n : Nat) (s : State) : Prop := standsIn n s ∧ ∀ k, k < 42 → outsideWindow (s.panel k) = false ∧ (s.panel k).testWait = false
/-- Just the nodes g picks have failed a test since s, with a code, and are fenced with their work discarded (R471 to R484). -/
def failsNow (g : NodeId → Prop) (code : Nat) (s t : State) : Prop :=
  ∀ n, nodeExists n = true →
    (hasFailed t n = true ↔ hasFailed s n = true ∨ (g n ∧ underTest s n = true)) ∧
    (g n → underTest s n = true → (n, code) ∈ t.brg.fails ∧ (t.node n).fenced = true ∧ (t.node n).core.run = false ∧ (t.node n).mc.run = false)
/-- A test of the table has its record in the report (R485, R486). -/
def reported (test tested : Nat) (t : State) : Prop := ∃ r ∈ t.brg.report, r.test = test ∧ r.tested = tested ∧ r.full = t.brg.full ∧ ∀ c, coverageOf test = some c → r.coverage = c

/-- The byte memories that the state holds are in their canonical form (R260, R261, R542). -/
def canonical (s : State) : Prop := s.lining.wf = true ∧ s.bolt.wf = true ∧ s.hostMem.wf = true
/-- Every command that waits names units that exist and carries a word of its own row. -/
def queueWf (s : State) : Prop := ∀ c ∈ s.pending, c.wf = true

end Sys2Proof.Machine
end

