-- ==== Sys2Proof/Certificates/Slice0/Obligations.lean ====
section
/-! DEFINITION. What is stated of the model, for the provers. -/

open Sys2Proof Sys2Proof.Machine


/-- R680 with R116; R120 with R117, R121: SCL instructions on 64-bit registers; TINT and TLOG, element by element. -/
def Obligations.IntegerResults : Prop :=
  (∀ (n : NodeId) (w : VWord) (s : State), vReady n s →
    let c := (s.node n).core
    let a := c.scalar (vA w)
    let b := c.scalar (vB w)
    let k := b.toNat % 256
    let old := c.scalar (vD w)
    ∀ x ∈ [(Instr.sclAdd n w, (a.toNat + b.toNat) % 2 ^ 64), (.sclSub n w, (a.toNat + (2 ^ 64 - b.toNat)) % 2 ^ 64),
        (.sclMul n w, a.toNat * b.toNat % 2 ^ 64), (.sclAnd n w, a.toNat &&& b.toNat), (.sclOr n w, a.toNat ||| b.toNat),
        (.sclXor n w, a.toNat ^^^ b.toNat), (.sclShl n w, a.toNat * 2 ^ k % 2 ^ 64), (.sclShr n w, a.toNat / 2 ^ k),
        (.sclSra n w, (a.toInt / 2 ^ k % 2 ^ 64).toNat), (.movi n w, (sgn 24 (vImm w) % 2 ^ 64).toNat),
        (.movhi n w, old.toNat / 2 ^ 48 * 2 ^ 48 + vImm w * 2 ^ 24 + old.toNat % 2 ^ 24)],
      ∃ t, exec x.1 s = .next t ∧ ((t.node n).core.scalar (vD w)).toNat = x.2 ∧ retires n 1 (nextPc n s) s t ∧ onlyCore n s t ∧
        onlyFiles c (t.node n).core ∧ sameScalars [vD w] c (t.node n).core ∧ sameTiles [] c (t.node n).core ∧ samePreds [] c (t.node n).core) ∧
  (∀ (n : NodeId) (w : VWord) (s : State), vReady n s → etInt (vEt w) = true →
    let c := (s.node n).core
    let et := vEt w
    let ew := etW et
    let raw (r i : Nat) : Nat := element ew (c.tile r) i
    let val (r i : Nat) : Int := elInt et (raw r i)
    let a := val (vA w)
    let b := val (vB w)
    let sh (i : Nat) : Nat := raw (vB w) i % 256
    (∀ x ∈ [(Instr.tintAdd n w none, fun i => a i + b i), (.tintSub n w none, fun i => a i - b i), (.tintMul n w none, fun i => a i * b i),
        (.tintAbs n w, fun i => ((a i).natAbs : Int)), (.tintNeg n w, fun i => -a i), (.tintMin n w, fun i => min (a i) (b i)),
        (.tintMax n w, fun i => max (a i) (b i)), (.mac n w none, fun i => a i * b i + val (vC w) i), (.tlogShl n w none, fun i => a i * 2 ^ sh i)],
      ∃ t, exec x.1 s = .next t ∧ tileResult n w ew 4 (fun i => inElement et (vSat w) (x.2 i))
        (fun i => vSat w && (decide (x.2 i < elMin et) || decide (elMax et < x.2 i))) s t) ∧
    (∀ x ∈ [(Instr.mulh n w none, fun i => (a i * b i / 2 ^ ew % 2 ^ ew).toNat), (.tlogAnd n w, fun i => raw (vA w) i &&& raw (vB w) i),
        (.tlogOr n w, fun i => raw (vA w) i ||| raw (vB w) i), (.tlogXor n w, fun i => raw (vA w) i ^^^ raw (vB w) i),
        (.tlogNot n w, fun i => 2 ^ ew - 1 - raw (vA w) i), (.tlogShr n w, fun i => raw (vA w) i / 2 ^ sh i),
        (.tlogSra n w, fun i => (a i / 2 ^ sh i % 2 ^ ew).toNat),
        (.srar n w, fun i => if ew ≤ sh i then 0 else (rneShift (a i) (sh i) % 2 ^ ew).toNat)],
      ∃ t, exec x.1 s = .next t ∧ tileResult n w ew 4 x.2 (fun _ => false) s t) ∧
    ∃ t, exec (.tintSel n w) s = .next t ∧ retires n (if kindOf n = .f then 16 else 4) (nextPc n s) s t ∧ onlyCore n s t ∧
      sameTiles [vD w % 16] c (t.node n).core ∧
      ∀ i, i < 32768 / ew → element ew ((t.node n).core.tile (vD w)) i = raw (if active ew (c.pred (vPred w)) i then vA w else vB w) i)

/-- R122 with R116; R124 with R116: TFP, element by element, rounded once to the element format; TRED. The tree adds element 2k to element 2k + 1 at
each level. -/
def Obligations.FloatAndReductionResults : Prop :=
  (∀ (n : NodeId) (w : VWord) (s : State), vReady n s → etFp (vEt w) = true →
    let c := (s.node n).core
    let et := vEt w
    let ew := etW et
    let raw (r i : Nat) : Nat := element ew (c.tile r) i
    let a (i : Nat) : Sys2Proof.Num := elFp et (raw (vA w) i)
    let b (i : Nat) : Sys2Proof.Num := elFp et (raw (vB w) i)
    let d (i : Nat) : Sys2Proof.Num := elFp et (raw (vC w) i)
    (∀ x ∈ [(Instr.tfpAdd n w none, fun i => (a i).add (b i)), (.tfpSub n w none, fun i => (a i).add (b i).neg), (.tfpMul n w none, fun i => (a i).mul (b i)),
        (.fma n w none, fun i => ((a i).mul (b i)).add (d i)), (.tfpMin n w, fun i => numMin (a i) (b i)), (.tfpMax n w, fun i => numMax (a i) (b i)),
        (.tfpNeg n w, fun i => (a i).neg)],
      ∃ t, exec x.1 s = .next t ∧ tileResult n w ew 4 (fun i => toEl et (x.2 i) % 2 ^ ew) (fun _ => false) s t) ∧
    (∃ t, exec (.tfpAbs n w) s = .next t ∧ tileResult n w ew 4 (fun i => (if (a i).isNegZero ∨ (a i).lt (.fin false 0 0) then toEl et (a i).neg else toEl et (a i)) % 2 ^ ew) (fun _ => false) s t) ∧
    ∃ t, exec (.tfpSel n w) s = .next t ∧ retires n (if kindOf n = .f then 16 else 4) (nextPc n s) s t ∧ onlyCore n s t ∧
      sameTiles [vD w % 16] c (t.node n).core ∧
      ∀ i, i < 32768 / ew → element ew ((t.node n).core.tile (vD w)) i = raw (if active ew (c.pred (vPred w)) i then vA w else vB w) i) ∧
  (∀ (n : NodeId) (w : VWord) (s : State), vReady n s → etAny (vEt w) = true →
    let c := (s.node n).core
    let et := vEt w
    let ew := etW et
    let per := 1024 / ew
    let row (r : Nat) : List Nat := (List.range per).map (fun j => element ew (c.tile (vA w)) (per * r + j))
    let reduced (f : Nat → Nat → Nat) (i : Nat) : Nat := if i % per = 0 then (treeFold f 7 (row (i / per))).getD 0 0 % 2 ^ ew else 0
    (∀ x ∈ ([(.rmax n w, fun x y => if etFp et then toEl et (numMax (elFp et x) (elFp et y)) else if elInt et x < elInt et y then y else x),
        (.rmin n w, fun x y => if etFp et then toEl et (numMin (elFp et x) (elFp et y)) else if elInt et y < elInt et x then y else x)]
        : List (Instr × (Nat → Nat → Nat))),
      ∃ t, exec x.1 s = .next t ∧ tileResult n w ew 4 (reduced x.2) (fun _ => false) s t) ∧
    ((vSat w = false ∨ etFp et = true) → ∃ t, exec (.rsum n w) s = .next t ∧
      tileResult n w ew 4 (reduced (fun x y => if etFp et then toEl et ((elFp et x).add (elFp et y)) else (x + y) % 2 ^ ew)) (fun _ => false) s t) ∧
    (vSat w = true → etSigned et = true →
      let c1 (x y : Nat × Bool) : Nat × Bool :=
        let v := elInt et x.1 + elInt et y.1
        (inElement et true v, decide (v < elMin et) || decide (elMax et < v) || x.2 || y.2)
      let sum (r : Nat) : Nat × Bool := (treeFold c1 7 ((row r).map (fun x => (x, false)))).getD 0 (0, false)
      ∃ t, exec (.rsum n w) s = .next t ∧
        tileResult n w ew 4 (fun i => if i % per = 0 then (sum (i / per)).1 else 0) (fun i => decide (i % per = 0) && (sum (i / per)).2) s t))

/-- R123, R339 and R682: CVT of the part it names, and the two forms of CVTMX. -/
def Obligations.ConversionResults : Prop :=
  ∀ (n : NodeId) (w : VWord) (s : State), vReady n s →
    let c := (s.node n).core
    let nd := s.node n
    (∀ src dst, etFmt (vEt w) = some src → cvtDst w = some dst → vImmF w 23 8 = 0 → bit w 4 = false →
      let ns := 32768 / src.width
      let nt := 32768 / dst.width
      let part := vImmF w 7 6
      part < max ns nt / min ns nt →
      let so := if nt < ns then part * nt else 0
      let to' := if ns < nt then part * ns else 0
      let r (i : Nat) : Rounded := encodeNum dst (vSat w) (if dst = .fp32 then .rne else cvtRounding w nd (i - to'))
        (decodeNum src (element src.width (c.tile (vA w)) (so + (i - to'))))
      let hit (i : Nat) : Bool := decide (to' ≤ i) && decide (i < to' + min ns nt)
      ∃ t, exec (.cvt n w) s = .next t ∧ tileResult n w dst.width 4
        (fun i => if hit i then (r i).code % 2 ^ dst.width else element dst.width (c.tile (vD w)) i) (fun i => hit i && vSat w && (r i).ovf) s t) ∧
    (∀ f, fmtOfCode (vImmF w 3 0) = some f → isMxCode (vImmF w 3 0) = true → vEt w = 2 → vImmF w 23 5 = 0 →
      let block := if bit w 4 then 1024 else 32
      let src (k : Nat) : List Sys2Proof.Num := (List.range block).map (fun i => f32 (element 32 (c.tile (vA w)) (block * k + i)))
      let mx (k : Nat) : Nat × List Nat := mxBlock f (fun i => cvtRounding w nd (block * k + i)) (src k)
      ∃ t, exec (if bit w 4 then .cvtmxSquare n w else .cvtmx n w) s = .next t ∧
        retires n (if kindOf n = .f then 32 else 8) (nextPc n s) s t ∧ onlyCore n s t ∧ onlyFiles c (t.node n).core ∧
        sameTiles [vD w % 16, vC w % 16] c (t.node n).core ∧ sameScalars [] c (t.node n).core ∧ samePreds [] c (t.node n).core ∧
        (∀ k, k < 32 → element 8 ((t.node n).core.tile (vC w)) k = (mx (32 * k / block)).1 % 256) ∧
        (∀ i, i < 1024 → (vC w % 16 ≠ vD w % 16 ∨ 256 ≤ f.width * i) →
          element f.width ((t.node n).core.tile (vD w)) i = ((mx (i / block)).2.getD (i % block) 0) % 2 ^ f.width) ∧
        (∀ k, 128 * f.width ≤ k → k < 4096 → element 8 ((t.node n).core.tile (vD w)) k = element 8 (c.tile (vD w)) k) ∧
        (∀ k, 32 ≤ k → k < 4096 → vC w % 16 ≠ vD w % 16 → element 8 ((t.node n).core.tile (vC w)) k = element 8 (c.tile (vC w)) k))

/-- R113, R122 with R116, R117, R681; R116, R117, R125, R126: TCMP and predicate logic, POPC; TPRM. -/
def Obligations.CompareAndPermuteResults : Prop :=
  (∀ (n : NodeId) (w : VWord) (s : State), vReady n s → etAny (vEt w) = true →
    let c := (s.node n).core
    let et := vEt w
    let ew := etW et
    let fp := etFp et
    let a (i : Nat) : Nat := element ew (c.tile (vA w)) i
    let b (i : Nat) : Nat := element ew (c.tile (vB w)) i
    let lt (x y : Nat) : Bool := if fp then (elFp et x).lt (elFp et y) else decide (elInt et x < elInt et y)
    let eq (x y : Nat) : Bool := if fp then (elFp et x).eq (elFp et y) else elInt et x == elInt et y
    let p (r k : Nat) : Bool := (c.pred r).getLsbD k
    let setsPred (res : Nat → Bool) (t : State) : Prop :=
      retires n (if kindOf n = .f then 16 else 4) (nextPc n s) s t ∧ onlyCore n s t ∧ onlyFiles c (t.node n).core ∧
      sameTiles [] c (t.node n).core ∧ sameScalars [] c (t.node n).core ∧ samePreds [vD w % 8] c (t.node n).core ∧
      ∀ k, k < 4096 → ((t.node n).core.pred (vD w)).getLsbD k = if written ew w c (k / (ew / 8)) then res k else p (vD w) k
    (∀ x ∈ ([(.tcmpEq n w, eq), (.tcmpNe n w, fun x y => !eq x y), (.tcmpLt n w, lt), (.tcmpLe n w, fun x y => lt x y || eq x y),
        (.tcmpGt n w, fun x y => lt y x), (.tcmpGe n w, fun x y => lt y x || eq x y)] : List (Instr × (Nat → Nat → Bool))),
      ∃ t, exec x.1 s = .next t ∧ setsPred (fun k => x.2 (a (k / (ew / 8))) (b (k / (ew / 8)))) t) ∧
    (∀ x ∈ ([(.pand n w, fun k => p (vA w) k && p (vB w) k), (.por n w, fun k => p (vA w) k || p (vB w) k), (.pnot n w, fun k => !p (vA w) k)]
        : List (Instr × (Nat → Bool))),
      ∃ t, exec x.1 s = .next t ∧ setsPred x.2 t) ∧
    ∃ t, exec (.popc n w) s = .next t ∧ retires n (if kindOf n = .f then 16 else 4) (nextPc n s) s t ∧ onlyCore n s t ∧ onlyFiles c (t.node n).core ∧
      sameTiles [] c (t.node n).core ∧ sameScalars [vD w] c (t.node n).core ∧ samePreds [] c (t.node n).core ∧
      ((t.node n).core.scalar (vD w)).toNat = (List.range (32768 / ew)).countP (active ew (c.pred (vPred w)))) ∧
  (∀ (n : NodeId) (w : VWord) (s : State), vReady n s → etAny (vEt w) = true →
    let c := (s.node n).core
    let ew := etW (vEt w)
    let N := 32768 / ew
    let a (i : Nat) : Nat := element ew (c.tile (vA w)) i
    let on (i : Nat) : Bool := active ew (c.pred (vPred w)) i
    let rank (i : Nat) : Nat := (List.range i).countP on
    let selects (x : Instr) (res : State → Prop) : Prop :=
      ∃ t, exec x s = .next t ∧ retires n (if kindOf n = .f then 32 else 8) (nextPc n s) s t ∧ onlyCore n s t ∧ onlyFiles c (t.node n).core ∧
        sameTiles [vD w % 16] c (t.node n).core ∧ sameScalars [vB w] c (t.node n).core ∧ samePreds [] c (t.node n).core ∧
        ((t.node n).core.scalar (vB w)).toNat = rank N ∧ res t
    selects (.compress n w) (fun t => (∀ i, i < N → on i = true → element ew ((t.node n).core.tile (vD w)) (rank i) = a i) ∧
      ∀ k, rank N ≤ k → k < N → element ew ((t.node n).core.tile (vD w)) k = 0) ∧
    selects (.expand n w) (fun t => ∀ i, i < N → element ew ((t.node n).core.tile (vD w)) i = if on i then a (rank i) else element ew (c.tile (vC w)) i) ∧
    (∃ t, exec (.trans n w) s = .next t ∧ tileResult n w 32 4 (fun i => element 32 (c.tile (vA w)) (32 * (i % 32) + i / 32)) (fun _ => false) s t) ∧
    (∃ t, exec (.bcast n w) s = .next t ∧ tileResult n w ew 4 (fun _ => (c.scalar (vA w)).toNat % 2 ^ ew) (fun _ => false) s t) ∧
    ∃ t, exec (.rowb n w) s = .next t ∧ tileResult n w ew 4 (fun i => a (1024 / ew * vImmF w 4 0 + i % (1024 / ew))) (fun _ => false) s t)

/-- R220, R222 to R224, R228: CTL instructions. -/
def Obligations.ControlResults : Prop :=
  ∀ (n : NodeId) (w : VWord) (s : State), vReady n s →
    let c := (s.node n).core
    let p := (s.node n).pat
    let i := vA w % 16
    let target : U16 := BitVec.ofNat 16 (vImmF w 15 0)
    let d := c.scalar (vA w)
    let v := fld (c.scalar (vB w)) 31 0
    let rp := vC w % 16
    let taken := fld d 27 26 = 1 ∧ fld d 31 28 = vImmF w 19 16 ∧ (bit w 20 = false ∨ fld d 47 32 = fld (c.scalar (vB w)) 15 0)
    let works (x : Instr) (next : U16) (core : Core → Prop) (pat : Pat → Prop) : Prop :=
      ∃ t, exec x s = .next t ∧ onlyCore n s t ∧ (t.node n).core.pc = next ∧
        (t.node n).core = { c with scalars := (t.node n).core.scalars, counters := (t.node n).core.counters, reloads := (t.node n).core.reloads
                                   pc := next, issueCycles := satAdd c.issueCycles 1, retired := satAdd c.retired 1, blocked := none } ∧
        (t.node n).pat = { p with active := (t.node n).pat.active, slotSwitches := (t.node n).pat.slotSwitches, runRates := (t.node n).pat.runRates
                                  runWork := satAdd p.runWork 1, runInstr := satAdd p.runInstr 1 } ∧
        core (t.node n).core ∧ pat (t.node n).pat
    let files (k : Core) : Prop := ∀ r, k.counter r = c.counter r ∧ k.reload r = c.reload r
    let points (q : Pat) : Prop := q.active = p.active ∧ q.slotSwitches = p.slotSwitches ∧ ∀ r, Table.get 0 q.runRates r = Table.get 0 p.runRates r
    (ctlClean w 0 0 0 0 0 = true → works (.ctlNop n w) (nextPc n s) (fun k => sameScalars [] c k ∧ files k) points) ∧
    (loopClean w = true →
      (vImmF w 23 22 = 0 → works (.loopCount n w) (if 1 < (c.counter i).toNat then target else nextPc n s) (fun k =>
        sameScalars [] c k ∧ (∀ r, k.reload r = c.reload r) ∧ (∀ r, r ≠ i → k.counter r = c.counter r) ∧
        k.counter i = if 1 < (c.counter i).toNat then c.counter i - 1 else c.reload i) points) ∧
      (vImmF w 23 22 = 1 → works (.loopLoad n w) (nextPc n s) (fun k =>
        sameScalars [] c k ∧ (∀ r, r ≠ i → k.counter r = c.counter r ∧ k.reload r = c.reload r) ∧
        (k.counter i).toNat = v ∧ (k.reload i).toNat = v) (fun q => q.active = p.active ∧ q.slotSwitches = p.slotSwitches ∧
        Table.get 0 q.runRates rp = satAdd (Table.get 0 p.runRates rp) v ∧ ∀ r, r ≠ rp → Table.get 0 q.runRates r = Table.get 0 p.runRates r)) ∧
      (vImmF w 23 22 = 2 → works (.loopRead n w) (nextPc n s) (fun k =>
        sameScalars [vD w] c k ∧ files k ∧ (k.scalar (vD w)).toNat = (c.counter i).toNat) points) ∧
      (vImmF w 23 22 = 3 → works (.loopJump n w) target (fun k => sameScalars [] c k ∧ files k) points)) ∧
    (ctlClean w 0x1F 0x1F 0xF 0 0x1FFFFF = true →
      (taken → works (.brtok n w) target (fun k => sameScalars [] c k ∧ files k) (fun q => q.active = p.active ∧ q.slotSwitches = p.slotSwitches ∧
        Table.get 0 q.runRates rp = satAdd (Table.get 0 p.runRates rp) 1 ∧ ∀ r, r ≠ rp → Table.get 0 q.runRates r = Table.get 0 p.runRates r)) ∧
      (¬ taken → works (.brtok n w) (nextPc n s) (fun k => sameScalars [] c k ∧ files k) points)) ∧
    (ctlClean w 0 0 0 0 3 = true → let k := vImmF w 1 0
      p.loaded.contains k = true → p.slotCtag k = p.ctag →
      works (.slot n w) (BitVec.ofNat 16 (p.entry k)) (fun q => sameScalars [] c q ∧ ∀ r, r < 16 →
        let keep := (p.hdr k 26 2 >>> r) % 2 = 1
        (q.counter r).toNat = (if keep then (c.counter r).toNat else p.hdr k (32 + 4 * r) 4) ∧
        (q.reload r).toNat = (if keep then (c.reload r).toNat else p.hdr k (32 + 4 * r) 4))
        (fun q => q.active = k ∧ q.slotSwitches = satAdd p.slotSwitches 1 ∧ ∀ r, Table.get 0 q.runRates r = Table.get 0 p.runRates r))

/-- R118 with R164, R171: LDT, STT, LDS and STS, their frames in the scratchpad included. -/
def Obligations.ScratchpadInstructionResults : Prop :=
  ∀ (n : NodeId) (w : VWord) (s : State), vReady n s → (s.node n).pad.bytes.wf = true →
    let c := (s.node n).core
    let p := (s.node n).pad
    let at' := (c.scalar (vA w)).toNat + vImm w
    let stride := (c.scalar (vB w)).toNat
    let charge := if kindOf n = .f then 16 else 4
    (at' % 64 = 0 → stride % 64 = 0 → at' + 31 * stride + 128 ≤ padBytes n →
      ((∀ r, r < 32 → p.unfilled (at' + r * stride) 128 = none ∧ p.badWord (at' + r * stride) 128 = none) →
        ∃ t, exec (.ldt n w none) s = .next t ∧ tileResult n w 8 4
          (fun k => (p.byteAt (at' + k / 128 * stride + k % 128)).toNat) (fun _ => false) s t) ∧
      ((∀ r, r < 32 → p.undrained (at' + r * stride) 128 = none) →
        ∃ t, exec (.stt n w) s = .next t ∧ retires n charge (nextPc n s) s t ∧ onlyCoreAndBytes n s t ∧
          onlyFiles c (t.node n).core ∧ sameTiles [] c (t.node n).core ∧ sameScalars [] c (t.node n).core ∧ samePreds [] c (t.node n).core ∧
          (∀ r k, r < 32 → k < 128 → (∀ r', r < r' → r' < 32 → at' + r * stride + k < at' + r' * stride ∨ at' + r' * stride + 128 ≤ at' + r * stride + k) →
            ((t.node n).pad.byteAt (at' + r * stride + k)).toNat = element 8 (c.tile (vD w)) (128 * r + k)) ∧
          ∀ b, (∀ r, r < 32 → b < at' + r * stride ∨ at' + r * stride + 128 ≤ b) → (t.node n).pad.byteAt b = p.byteAt b)) ∧
    (at' % 8 = 0 → at' + 8 ≤ padBytes n →
      (p.unfilled at' 8 = none → p.badWord at' 8 = none →
        ∃ t, exec (.lds n w none) s = .next t ∧ retires n charge (nextPc n s) s t ∧ onlyCore n s t ∧ onlyFiles c (t.node n).core ∧
          sameTiles [] c (t.node n).core ∧ sameScalars [vD w] c (t.node n).core ∧ samePreds [] c (t.node n).core ∧
          ∀ i, i < 8 → fld ((t.node n).core.scalar (vD w)) (8 * i + 7) (8 * i) = (p.byteAt (at' + i)).toNat) ∧
      (p.undrained at' 8 = none →
        ∃ t, exec (.sts n w) s = .next t ∧ retires n charge (nextPc n s) s t ∧ onlyCoreAndBytes n s t ∧ onlyFiles c (t.node n).core ∧
          sameTiles [] c (t.node n).core ∧ sameScalars [] c (t.node n).core ∧ samePreds [] c (t.node n).core ∧
          (∀ i, i < 8 → ((t.node n).pad.byteAt (at' + i)).toNat = fld (c.scalar (vD w)) (8 * i + 7) (8 * i)) ∧ bytesKept n at' 8 s t))

/-- R109, R114, R116, R118, R128, R147, R151, R160, R171, R193 to R195, R199, R221: what V and F core instructions raise in place of issuing. -/
def Obligations.VectorTraps : Prop :=
  ∀ (n : NodeId) (w : VWord) (s : State), isVec n = true → (s.node n).canIssue = true → bit (s.node n).fault 63 = false →
    let a := s.node n
    let pc := a.core.pc.toNat
    let raises (x : Instr) (code : Nat) : Prop := ∃ t, exec x s = .next t ∧ onlyNode n s t ∧
      (t.node n).halted = true ∧ (t.node n).pat.veto = true ∧ bit (t.node n).fault 63 = true ∧ fld (t.node n).fault 7 0 = code ∧
      fld (t.node n).fault 31 16 = pc ∧ bit (t.node n).fault 8 = isProgram code ∧
      (t.node n).core = { a.core with residue := (t.node n).core.residue, fnCompare := (t.node n).core.fnCompare }
    (a.pat.progLen a.pat.active ≤ pc → raises (.ctlNop n w) 0x1A ∧ raises (.sclAdd n w) 0x1A ∧ raises (.sts n w) 0x1A) ∧
    (pc < a.pat.progLen a.pat.active →
      (ctlClean w 0 0 0 0 0 = false → raises (.ctlNop n w) 0x04) ∧
      (w ≠ 0 → raises (.vMark n w) 0x04) ∧
      (kindOf n = .v → raises (.exp2 n w false) 0x04 ∧ raises (.sample n w false) 0x04) ∧
      (etInt (vEt w) = false → raises (.tintAdd n w none) 0x07 ∧ raises (.tlogAnd n w) 0x07 ∧ raises (.tintSel n w) 0x07) ∧
      (etFp (vEt w) = false → raises (.tfpAdd n w none) 0x07 ∧ raises (.tfpSel n w) 0x07) ∧
      (9 ≤ vEt w → raises (.tcmpEq n w) 0x07 ∧ raises (.pand n w) 0x07 ∧ raises (.compress n w) 0x07 ∧ raises (.rmax n w) 0x07) ∧
      (vSat w = true → etInt (vEt w) = true → etSigned (vEt w) = false → raises (.rsum n w) 0x07) ∧
      (∀ l, laneOk n (some l) = true → etInt (vEt w) = true → raises (.tintAdd n w (some l)) 0x15 ∧ raises (.mac n w (some l)) 0x15) ∧
      (kindOf n = .f → vEt w = 2 → raises (.exp2 n w true) 0x16 ∧ raises (.smerge n w true) 0x16) ∧
      ((a.core.scalar (vA w)).toNat + vImm w + 8 > padBytes n → raises (.lds n w none) 0x05 ∧ raises (.sts n w) 0x05) ∧
      (outMode (a.outEp (vImmF w 7 0)).desc = 0 → raises (.send n w none) 0x0B ∧ raises (.sendtok n w) 0x0B) ∧
      (inMode (a.inEp (vImmF w 7 0)).desc = 0 → bit w 9 = false → raises (.recv n w) 0x0B) ∧
      (252 ≤ fld (a.core.scalar (vA w)) 15 8 → raises (.kntArrive n w) 0x0D ∧ raises (.kntWait n w) 0x0D))

/-- R179, R181, R184, R185, R191, R193, R194, R197: SEND, SENDTOK and a send that its credit has come for. -/
def Obligations.SendResults : Prop :=
  ∀ (n : NodeId) (w : VWord) (s : State), isVec n = true → (s.node n).pad.bytes.wf = true →
    let c := (s.node n).core
    let nd := s.node n
    let ep := vImmF w 7 0
    let o := nd.outEp ep
    let len := if bit w 8 then 4096 else (c.scalar (vB w)).toNat
    let a := (c.scalar (vA w)).toNat
    let data := if bit w 8 then (List.range 4096).map (fun k => BitVec.ofNat 8 (element 8 (c.tile (vA w)) k)) else (List.range len).map (fun k => nd.pad.byteAt (a + k))
    let win := outMode o.desc == 2
    let r : OutRec := { kind := 0, woff := if win then (c.scalar (vC w)).toNat / 64 % 2 ^ 17 else 0, fill := win && bit w 9, notify := win && bit w 10, data := data }
    let tok : OutRec := { kind := 1, token := vImmF w 11 8, tokval := fld (c.scalar (vA w)) 15 0 }
    let payload := (outMode o.desc = 1 ∨ outMode o.desc = 2) ∧ 1 ≤ len ∧ len ≤ 8192 ∧ recBytes len ≤ 64 * outMaxrec o.desc ∧
      (bit w 8 = true ∨ (a + len ≤ padBytes n ∧ nd.pad.unfilled a len = none ∧ nd.pad.badWord a len = none))
    let token := (outMode o.desc = 1 ∨ outMode o.desc = 2) ∧ 1 ≤ vImmF w 11 8 ∧ vImmF w 11 8 ≤ 3
    let able := o.broken = false ∧ o.letout = false
    let waits (x : Instr) : Prop := ∃ t, exec x s = .next t ∧ onlyNode n s t ∧ (t.node n).core.blocked.isSome = true ∧ (t.node n).core.pc = c.pc ∧
      ((t.node n).outEp ep).blocked = true ∧ ((t.node n).outEp ep).seq = o.seq
    (vReady n s → able → payload → creditFor o r = true →
      ∃ t, exec (.send n w none) s = .next t ∧ accepted n ep r s t ∧ retires n 1 (nextPc n s) s t) ∧
    (vReady n s → able → token → creditFor o tok = true →
      ∃ t, exec (.sendtok n w) s = .next t ∧ accepted n ep tok s t ∧ retires n 1 (nextPc n s) s t) ∧
    (vReady n s → able → letEntry n nd ep = none → (payload → creditFor o r = false → waits (.send n w none)) ∧
      (token → creditFor o tok = false → waits (.sendtok n w))) ∧
    ∀ e h bs nt, c.blocked = some (.send e h bs nt) → nd.canComplete = true → (nd.outEp e).broken = false → (nd.outEp e).letout = false →
      (outMode (nd.outEp e).desc = 1 ∨ outMode (nd.outEp e).desc = 2) → creditFor (nd.outEp e) (outRecOf h bs) = true →
      ∃ t, exec (.sendProceeds n) s = .next t ∧ accepted n e (outRecOf h bs) s t ∧ retires n 1 (nextPc n s) s t ∧ ((t.node n).outEp e).blocked = false

/-- R188, R192, R195, R196: RECV, RELONLY, RECVANY and their completion once blocked. What a RECV releases first is `recvRelease`, whose own
effect
the RELONLY clause states. -/
def Obligations.ReceiveResults : Prop :=
  ∀ (n : NodeId) (w : VWord) (s : State), isVec n = true →
    let nd := s.node n
    let c := nd.core
    let ep := vImmF w 7 0
    let e := nd.inEp ep
    let mask := (c.scalar (vA w)).toNat
    (vReady n s → bit w 9 = false → inMode e.desc ≠ 0 →
      let s1 := recvRelease s n ep (bit w 8)
      (∀ i r, nextVisible (s1.node n) ep = some i → ((s1.node n).inEp ep).recs[i]? = some r →
        ∃ t, exec (.recv n w) s = .next t ∧ received n ep (vD w) (vB w) i r s1 t ∧ retires n 1 (nextPc n s) s t ∧
          sameTiles [] c (t.node n).core ∧ sameScalars [vD w, vB w] c (t.node n).core ∧ samePreds [] c (t.node n).core) ∧
      (nextVisible (s1.node n) ep = none →
        ∃ t, exec (.recv n w) s = .next t ∧ (t.node n).core.blocked = some (.recv ep (vD w) (vB w)) ∧ (t.node n).core.pc = c.pc ∧
          ((t.node n).inEp ep).blocked = true)) ∧
    (vReady n s → bit w 9 = true → bit w 8 = false → inMode e.desc = 1 → 0 < e.returned →
      (∀ r, e.recs[e.returned]? = some r → rhKind r.hdr = 0) →
      let freed := (e.recs.take e.returned).foldl (fun k r => k + r.size) e.credit
      ∃ t, exec (.recvRelonly n w) s = .next t ∧ retires n 1 (nextPc n s) s t ∧ sameTiles [] c (t.node n).core ∧ sameScalars [] c (t.node n).core ∧
        ((t.node n).inEp ep).recs = e.recs.drop e.returned ∧ ((t.node n).inEp ep).returned = 0 ∧
        (if e.creditWay.isSome ∧ freed ≠ 0 ∧ min (inBytes e.desc / 4) 16384 ≤ freed then
          ((t.node n).inEp ep).credit = 0 ∧ ∃ route pay, injects n [(route, pay, [])] s t ∧ rtType route = tyCredit ∧ fld pay 111 92 = freed / 64 % 2 ^ 20
        else ((t.node n).inEp ep).credit = freed ∧ t.flight = s.flight)) ∧
    (vReady n s → maskEps mask ≠ [] → (∀ k ∈ maskEps mask, inMode (nd.inEp k).desc ≠ 0) →
      ∀ k, (maskEps mask).find? (fun k => (nextVisible ((dropSeam s n k).node n) k).isSome) = some k →
        let s1 := recvRelease s n k (bit w 8)
        ∀ i r, nextVisible (s1.node n) k = some i → ((s1.node n).inEp k).recs[i]? = some r →
          ∃ t, exec (.recvany n w) s = .next t ∧ ((t.node n).inEp k).returned = i + 1 ∧ (t.node n).core.scalar (vC w) = BitVec.ofNat 64 k ∧
            (vB w ≠ vC w → (t.node n).core.scalar (vB w) = recvWord r.hdr) ∧
            (vD w ≠ vB w → vD w ≠ vC w → (t.node n).core.scalar (vD w) = BitVec.ofNat 64 r.addr) ∧
            (t.node n).pad.recvanyCount = satAdd (s1.node n).pad.recvanyCount 1 ∧ retires n 1 (nextPc n s) s t ∧
            sameTiles [] c (t.node n).core ∧ sameScalars [vD w, vB w, vC w] c (t.node n).core ∧ samePreds [] c (t.node n).core) ∧
    ∀ k d b, c.blocked = some (.recv k d b) → nd.canComplete = true →
      let s1 := dropSeam s n k
      ∀ i r, nextVisible (s1.node n) k = some i → ((s1.node n).inEp k).recs[i]? = some r →
        ∃ t, exec (.recvCompletes n) s = .next t ∧ received n k d b i r s1 t ∧ retires n 1 (nextPc n s) s t ∧ ((t.node n).inEp k).blocked = false

/-- R199, R203 to R205: knot operations of V and F cores, and the reply that ends them. -/
def Obligations.KnotInstructionResults : Prop :=
  ∀ (n : NodeId) (w : VWord) (s : State), isVec n = true →
    let nd := s.node n
    let c := nd.core
    let knot := fld (c.scalar (vA w)) 15 0
    let v := fld (c.scalar (vB w)) 31 0
    let part := nd.part.getD 16
    let route (k : Nat) : U128 := mkRoute n ⟨lNode (k / 256), 0⟩ (detourWay s n (lNode (k / 256)) part) tyKnot 0 part 0
    let rest (t : State) : Prop := t = { s with nodes := t.nodes, flight := t.flight, nextPid := t.nextPid } ∧ otherNodes n s t ∧
      t.node n = { nd with core := (t.node n).core, pat := (t.node n).pat } ∧
      sameTiles [] c (t.node n).core ∧ sameScalars [] c (t.node n).core ∧ samePreds [] c (t.node n).core
    (vReady n s → knot / 256 < 252 → c.posted.length < 8 →
      ∀ x ∈ [(Instr.kntArrive n w, 1, 0), (.kntAdd n w, 2, v), (.kntReset n w, 4, v)],
        ∃ t, exec x.1 s = .next t ∧ rest t ∧ retires n 1 (nextPc n s) s t ∧ (t.node n).core.posted = c.posted ++ [c.ticket] ∧
          (t.node n).core.ticket = (c.ticket + 1) % 255 ∧ injects n [(route knot, knotPay x.2.1 part knot c.ticket n 0 x.2.2 0, [])] s t) ∧
    (vReady n s → knot / 256 < 252 → 8 ≤ c.posted.length →
      ∀ x ∈ [Instr.kntArrive n w, .kntAdd n w, .kntReset n w],
        ∃ t, exec x s = .next t ∧ onlyNode n s t ∧ (t.node n).core.blocked.isSome = true ∧ (t.node n).core.pc = c.pc) ∧
    (vReady n s → knot / 256 < 252 →
      ∃ t, exec (.kntWait n w) s = .next t ∧ rest t ∧ (t.node n).core.blocked = some (.knotWait c.ticket) ∧ (t.node n).core.pc = c.pc ∧
        injects n [(route knot, knotPay 3 part knot c.ticket n 0 v 0, [])] s t) ∧
    ∀ k s', takeArrival s (.node n) (fun p => rtType p.route == tyKnot && !p.aborted && fld p.pay 127 124 == 8) = some (k, s') →
      nd.canComplete = true → nd.fenced = false → fld k.pay 79 72 = 0 → c.blocked = some (.knotWait (fld k.pay 103 96)) →
      ∃ t, exec (.knotReply (.node n)) s = .next t ∧ t.flight = s'.flight ∧ otherNodes n s t ∧ retires n 1 (nextPc n s) s t ∧
        (t.node n).core.posted = c.posted.filter (fun u => u != fld k.pay 103 96)

/-- R131 to R147; R135 to R140, R143 to R146: the FN instructions of F cores that work on a tile register, by the procedures of R132 and R133; the FN
instructions on scratchpad rows. -/
def Obligations.FunctionResults : Prop :=
  (∀ (n : NodeId) (w : VWord) (s : State), vReady n s → kindOf n = .f → vEt w = 2 →
    let c := (s.node n).core
    ∀ x ∈ ([(.exp2 n w false, fun v => (fnExp2 v, false)), (.log2 n w false, fun v => (fnLog2 v, false)), (.rcp n w false, fun v => (fnRcp v, false)),
        (.rsqrt n w false, fun v => (fnRsqrt v, false)), (.sin n w false, fnSin), (.cos n w false, fnCos), (.tanh n w false, fun v => (fnTanh v, false)),
        (.erf n w false, fun v => (fnErf v, false))] : List (Instr × (Sys2Proof.Num → Sys2Proof.Num × Bool))),
      let res (i : Nat) : Sys2Proof.Num × Bool := x.2 (f32 (element 32 (c.tile (vA w)) i))
      ∃ t, exec x.1 s = .next t ∧ retires n 16 (nextPc n s) s t ∧ onlyCore n s t ∧ sameTiles [vD w % 16] c (t.node n).core ∧
        sameScalars [] c (t.node n).core ∧ samePreds [] c (t.node n).core ∧
        (t.node n).core.fnRange = satAdd c.fnRange ((List.range 1024).countP (fun i => written 32 w c i && (res i).2)) ∧
        ∀ i, i < 1024 → element 32 ((t.node n).core.tile (vD w)) i = if written 32 w c i then toF32 (res i).1 % 2 ^ 32 else element 32 (c.tile (vD w)) i) ∧
  (∀ (n : NodeId) (w : VWord) (s : State), vReady n s → kindOf n = .f → vEt w = 2 → (s.node n).pad.bytes.wf = true →
    let nd := s.node n
    let c := nd.core
    let a := (c.scalar (vA w)).toNat
    let len := (c.scalar (vB w)).toNat
    let out := (c.scalar (vD w)).toNat
    let word (b : Nat) : Nat := leNat ((List.range 4).map (fun i => nd.pad.byteAt (b + i)))
    let row (b k : Nat) : List Nat := (List.range k).map (fun i => word (b + 4 * i))
    let clean (b bytes : Nat) : Prop := b + bytes ≤ padBytes n ∧ nd.pad.badWord b bytes = none
    let scale (k : Nat) : Sys2Proof.Num := r32 ((f32 k).mul (f32 (fld (c.scalar (vC w)) 31 0)))
    let stat (r : Nat) : Sys2Proof.Num × Sys2Proof.Num := (f32 (fld (c.scalar r) 31 0), f32 (fld (c.scalar r) 63 32))
    let m := (stat (vD w)).1
    let sum := (stat (vD w)).2
    let scalarOut (x : Instr) (charge : Nat) (v : Sys2Proof.Num × Sys2Proof.Num) : Prop :=
      ∃ t, exec x s = .next t ∧ retires n charge (nextPc n s) s t ∧ onlyCore n s t ∧ onlyFiles c (t.node n).core ∧ sameTiles [] c (t.node n).core ∧
        sameScalars [vD w] c (t.node n).core ∧ samePreds [] c (t.node n).core ∧
        (t.node n).core.scalar (vD w) = BitVec.ofNat 64 (toF32 v.1 + 2 ^ 32 * toF32 v.2)
    let storesAt (x : Instr) (charge b : Nat) (bs : List Byte) : Prop :=
      ∃ t, exec x s = .next t ∧ retires n charge (nextPc n s) s t ∧ onlyCoreAndBytes n s t ∧ sameTiles [] c (t.node n).core ∧
        sameScalars [] c (t.node n).core ∧ samePreds [] c (t.node n).core ∧ bytesAre n b bs t ∧ bytesKept n b bs.length s t
    (clean a (4 * len) → scalarOut (.smx n w false) ((len + 63) / 64 + 64) (smxRow ((row a len).map scale)) ∧
      storesAt (.smn n w false) ((len + 63) / 64 + 40) a ((row a len).flatMap (fun x => leBytes 4 (
        if m.isNan || sum.isNan then 0x7FC00000 else if m.isNegInf || fld (c.scalar (vD w)) 63 32 == 0 then 0
        else toF32 ((e32 (r32 ((scale x).add m.neg))).mul (r32 (fnRcp sum))))))) ∧
    scalarOut (.smerge n w false) 1 (smerge (stat (vA w)) (stat (vB w))) ∧
    (let k := (c.scalar (vC w)).toNat
     1 ≤ len → len ≤ 16777216 → 1 ≤ k → k ≤ 256 → clean a (4 * len) → out + 8 * min k len ≤ padBytes n →
      storesAt (.topk n w false) ((len + 63) / 64 + k + 256) out (((rankSort false (row a len).zipIdx).take k).flatMap keyBytes)) ∧
    (1 ≤ len → len ≤ 4096 → clean a (8 * len) →
      storesAt (.sort n w false) (2 ^ sortLog len / 64 * (sortLog len * (sortLog len + 1) / 2) + 40) a
        ((rankSort (bit w 0) ((List.range len).map (fun i => (word (a + 8 * i), word (a + 8 * i + 4))))).flatMap keyBytes)) ∧
    (let q := (c.scalar (vC w)).toNat
     let t := f32 (word q)
     let k := word (q + 8) % 65536
     1 ≤ len → len ≤ 16777216 → k ≤ 256 → t.isNan = false → t.lt (.fin false 0 0) = false → clean q 32 → clean a (4 * len) →
      let zero := t.eq (.fin false 0 0)
      let u := ((philox (fld c.seed 31 0) (fld c.seed 63 32) (word (q + 12)) (word (q + 16)) (word (q + 20))
        ((0x53410000 + word (q + 8) / 65536) % 2 ^ 32)).getD 0 0) / 256
      let pick : Choice := if zero then ⟨((rankSort false (row a len).zipIdx).getD 0 (0, 0)).2, 0x3F800000, false, false⟩
        else sampleChoose (row a len) t (f32 (word (q + 4))) k u
      let kt := if k = 0 ∧ (f32 (word (q + 4))).lt (.fin false 1 0) then 256 else k
      storesAt (.sample n w false) (if kt = 0 then 2 * ((len + 63) / 64) + 320 else (len + 63) / 64 + 3 * kt + 320) (q + 20)
        (leBytes 4 ((word (q + 20) + 1) % 2 ^ 32) ++ leBytes 4 pick.index ++ leBytes 4 pick.prob)))

/-- R71, R73 to R77, R80, R84, R92, R221, R227; R71, R72, R74 to R77, R80, R81, R84, R221, R257: tile commands as they enter the sequencer's window;
what the sequencer raises in place of taking a command. -/
def Obligations.TileCommandEntry : Prop :=
  (∀ (n : NodeId) (w : MWord) (s : State) (pos : FetchPos), mReady n s → wrapFetch (s.node n).pat ((s.node n).mc.pos (s.node n).pat.active) = some pos →
      pos.wait = none →
    let nd := s.node n
    let m := nd.mc
    let p : Pat := { nd.pat with active := pos.slot }
    let next := advance p pos
    let gi := fld w 123 122
    let g := m.group gi
    let enters (x : Instr) (op : Nat) (res : MCore → WinCmd → Prop) : Prop := ∃ t c, exec x s = .next t ∧ onlyNode n s t ∧
      t.node n = { nd with mc := (t.node n).mc, pat := { p with runInstr := satAdd nd.pat.runInstr 1 } } ∧
      c.idx = pos.idx ∧ fld c.word 127 124 = op ∧ fld c.word 123 0 = w.toNat ∧ c.issued = false ∧
      (t.node n).mc.window = (m.window ++ [c]).dropWhile (·.done) ∧
      (t.node n).mc.fetch = next.idx ∧ (t.node n).mc.loops = next.loops ∧ (t.node n).mc.loopWait = next.wait ∧
      (t.node n).mc = { m with window := (t.node n).mc.window, fetch := next.idx, loops := next.loops, loopWait := next.wait, groups := (t.node n).mc.groups
                               cuffs := (t.node n).mc.cuffs, lastPass := (t.node n).mc.lastPass, passSeq := (t.node n).mc.passSeq } ∧
      res (t.node n).mc c
    let groups (k : MCore) (but : List Nat) : Prop := ∀ i, i ∉ but → k.group i = m.group i
    let cuffs (k : MCore) : Prop := k.cuffs = m.cuffs
    let passes (k : MCore) : Prop := k.lastPass = m.lastPass ∧ k.passSeq = m.passSeq
    (w = 0 → enters (.mNop n w) 0 (fun k c => c.done = true ∧ groups k [] ∧ cuffs k ∧ passes k) ∧
      enters (.mMark n w) 5 (fun k c => c.done = false ∧ groups k [] ∧ cuffs k ∧ passes k)) ∧
    (fld w 73 0 = 0 → (bit w 115 = true ∨ fld w 114 105 = 0) → g.isOpen = false → g.draining = false →
      let count := fld w 121 116
      let rows := 32 * (fld w 95 92 + 1)
      let cols := 32 * (fld w 91 88 + 1)
      1 ≤ count → count ≤ 32 → fld w 104 101 < 13 → fld w 100 97 < 13 → (count = 1 ∨ 512 * fld w 87 74 + rows * cols * 8 ≤ 8388608) →
      enters (.group n w) 1 (fun k c => c.done = true ∧ groups k [gi] ∧ cuffs k ∧ passes k ∧
        let x := k.group gi
        x.isOpen = true ∧ x.passes = count ∧ x.amode = bit w 115 ∧ x.anchor = (if bit w 115 then some (sgn 10 (fld w 114 105)) else none) ∧
        x.fmtA = fld w 104 101 ∧ x.fmtB = fld w 100 97 ∧ x.backward = bit w 96 ∧ x.mrows = fld w 95 92 ∧ x.ncols = fld w 91 88 ∧ x.pbase = fld w 87 74 ∧
        x.received = 0 ∧ x.issued = 0 ∧ x.completed = 0 ∧ x.plane = none ∧ x.spilled = false ∧ x.scanned = none)) ∧
    (fld w 64 0 = 0 → g.isOpen = true → g.received < g.passes → pairOk g.fmtA g.fmtB = true →
      let o := passOpOf p pos (BitVec.ofNat 128 (2 * 2 ^ 124 + w.toNat)) m.passSeq m.lastPass
      (bit w 65 = true → ∃ l, m.lastPass = some l ∧ l.kblk = o.kblk) → unitsInPad (statPad o) (footprint g.fmtB) (statUnits g o) = true →
      unitsInPad (strPad o) (footprint g.fmtA) (strUnits g o) = true →
      enters (.pass n w) 2 (fun k c => c.done = false ∧ c.pass = some o ∧ groups k [gi] ∧ cuffs k ∧ k.lastPass = some o ∧ k.passSeq = m.passSeq + 1 ∧
        k.group gi = { g with received := g.received + 1 })) ∧
    (fld w 78 0 = 0 → g.isOpen = true → g.passes ≤ g.received → fld w 121 118 < 13 → fld w 115 113 ≤ 3 →
      enters (.mDrain n w) 3 (fun k c => c.done = false ∧ groups k [gi] ∧ cuffs k ∧ passes k ∧ k.group gi = { g with isOpen := false, draining := true } ∧
        c.daddr = (fld w 106 91 : Nat) + increment p pos (·.dstep) ∧
        c.cuff = if fld w 90 87 = 0 then some [] else Table.find? m.cuffs (fld w 90 87))) ∧
    (fld w 95 0 = 0 → fld w 123 122 ≠ 3 → 1 ≤ fld w 108 96 → fld w 121 109 + fld w 108 96 ≤ (mPadSlots (fld w 123 122)).2 →
      enters (.mRelease n w) 4 (fun k c => c.done = false ∧ groups k [] ∧ cuffs k ∧ passes k)) ∧
    (fld w 103 0 = 0 → fld w 123 120 ≠ 0 → fld w 119 104 < 32768 → nd.pad.bytes.wf = true →
      enters (.cuffld n w) 6 (fun k c => c.done = true ∧ groups k [] ∧ passes k ∧
        Table.get [] k.cuffs (fld w 123 120) = (List.range 64).map (fun i => nd.pad.byteAt (0x1800000 + 512 * fld w 119 104 + i)) ∧
        ∀ i, i ≠ fld w 123 120 → Table.get [] k.cuffs i = Table.get [] m.cuffs i))) ∧
  (∀ (n : NodeId) (w : MWord) (s : State), mReady n s → bit (s.node n).fault 63 = false →
    let nd := s.node n
    let m := nd.mc
    let at' := wrapFetch nd.pat (m.pos nd.pat.active)
    let gi := fld w 123 122
    let g := m.group gi
    let raises (x : Instr) (code : Nat) : Prop := ∃ t, exec x s = .next t ∧ onlyNode n s t ∧ (t.node n).halted = true ∧ (t.node n).pat.veto = true ∧
      bit (t.node n).fault 63 = true ∧ fld (t.node n).fault 7 0 = code ∧ bit (t.node n).fault 8 = true ∧ (t.node n).mc.window = m.window
    (at' = none → ∀ x ∈ [Instr.mNop n w, .group n w, .pass n w, .mDrain n w, .mRelease n w, .mMark n w, .cuffld n w], raises x 0x19) ∧
    ((∃ pos, at' = some pos ∧ pos.wait = none) →
      (w ≠ 0 → raises (.mNop n w) 0x04 ∧ raises (.mMark n w) 0x04) ∧ (fld w 73 0 ≠ 0 → raises (.group n w) 0x04) ∧ (fld w 64 0 ≠ 0 → raises (.pass n w) 0x04) ∧
      (fld w 78 0 ≠ 0 → raises (.mDrain n w) 0x04) ∧ (fld w 95 0 ≠ 0 → raises (.mRelease n w) 0x04) ∧ (fld w 103 0 ≠ 0 → raises (.cuffld n w) 0x04) ∧
      (fld w 73 0 = 0 → (bit w 115 = true ∨ fld w 114 105 = 0) → g.isOpen = true → raises (.group n w) 0x06) ∧
      (fld w 73 0 = 0 → (bit w 115 = true ∨ fld w 114 105 = 0) → g.isOpen = false → g.draining = false → (fld w 121 116 = 0 ∨ 32 < fld w 121 116) → raises (.group n w) 0x02) ∧
      (fld w 64 0 = 0 → (g.isOpen = false ∨ g.passes ≤ g.received) → raises (.pass n w) 0x06) ∧
      (fld w 78 0 = 0 → (g.isOpen = false ∨ g.received < g.passes) → raises (.mDrain n w) 0x06) ∧
      (fld w 95 0 = 0 → (fld w 123 122 = 3 ∨ fld w 108 96 = 0) → raises (.mRelease n w) 0x05) ∧
      (fld w 103 0 = 0 → (fld w 123 120 = 0 ∨ 32768 ≤ fld w 119 104) → raises (.cuffld n w) 0x05)))

/-- R41, R46, R78, R79, R82 to R86, R89, R100 to R104, R225, R227, R676: passes scanned, issued and completed, releases and loop tokens. -/
def Obligations.PassResults : Prop :=
  ∀ (n : NodeId) (s : State), isM n = true → (s.node n).live = true → (s.node n).mc.run = true →
    let nd := s.node n
    let m := nd.mc
    let keeps (t : State) : Prop := onlyNode n s t ∧ t.node n = { nd with mc := (t.node n).mc, pad := (t.node n).pad, pat := (t.node n).pat, events := (t.node n).events }
    (∀ g ops, g ≤ 3 → let x := m.group g
      (x.isOpen = true ∨ x.draining = true) → x.amode = false → x.scanned = none →
      scanGo nd g x.passes 4194304 (settle (loopTable nd.pat x.scanSlot) 16 ⟨x.scanSlot, x.scanAt, x.scanLoops, none⟩) x.tokSeen [] x.scanSeq x.scanLast [] = .found ops →
      ∃ t, exec (.passScan n g) s = .next t ∧ keeps t ∧ (t.node n).pad = nd.pad ∧ (t.node n).pat = nd.pat ∧
        (t.node n).mc = { m with groups := (t.node n).mc.groups } ∧ (t.node n).mc.group g = { x with scanned := some ops } ∧
        ∀ i, i ≠ g → (t.node n).mc.group i = m.group i) ∧
    (∀ c o plane, pickPass nd = some c → c.pass = some o → let g := m.group o.g
      axisOk nd.pad (statPad o) g.fmtB (!o.wt) (statUnits g o) = true → axisOk nd.pad (strPad o) g.fmtA o.at' (strUnits g o) = true →
      (∀ u ∈ statUnits g o, nd.pad.badWord (unitAddr (statPad o) u.toNat) (blockBytes g.fmtB) = none) →
      (∀ u ∈ strUnits g o, nd.pad.badWord (unitAddr (strPad o) u.toNat) (blockBytes g.fmtA) = none) →
      planeFor nd g = some (plane, false) →
      let a := match g.anchor with | some a => a | none => groupAnchor nd.pad g (g.scanned.getD [])
      let pre := if o.reuse then 0 else 512
      ∃ t, exec (.passIssue n none) s = .next t ∧ keeps t ∧ (t.node n).pad = nd.pad ∧ (t.node n).pat = { nd.pat with runWork := satAdd nd.pat.runWork pre } ∧
        let g' := (t.node n).mc.group o.g
        g'.issued = g.issued + 1 ∧ g'.anchor = some a ∧ g'.plane = some plane ∧ g'.passes = g.passes ∧ g'.received = g.received ∧
        (g.plane = none → g.spilled = false → g'.acc = List.replicate (1024 * (g.mrows + 1) * (g.ncols + 1)) (⟨0, 0⟩ : Acc)) ∧
        (∃ fl, (t.node n).mc.flights = m.flights ++ [fl] ∧ fl.g = o.g ∧ fl.idx = c.idx ∧ fl.ord = g.issued ∧
          (t.node n).mc.prodTrunc = satAdd m.prodTrunc fl.truncs ∧ (t.node n).mc.anchorClamp = satAdd m.anchorClamp fl.clamps) ∧
        (t.node n).mc.preload = satAdd m.preload pre ∧ (t.node n).mc.shadow = true) ∧
    (∀ fl rest err, m.flights = fl :: rest → err.sweepCol = false → err.sweepRow = false → badRowsOf fl err = [] →
      let g := m.group fl.g
      let cols := 32 * (g.ncols + 1)
      badColsOf cols fl err = [] →
      ∃ t, exec (.passComplete n err) s = .next t ∧ keeps t ∧ (t.node n).pad = nd.pad ∧ (t.node n).halted = nd.halted ∧
        (t.node n).mc.flights = rest ∧ (t.node n).mc.stream = satAdd m.stream (fl.interval * fl.rows) ∧ (t.node n).mc.ckMismatch = satAdd m.ckMismatch 0 ∧
        let g' := (t.node n).mc.group fl.g
        g'.completed = g.completed + 1 ∧ g'.acc.length = min g.acc.length fl.sums.length ∧
        ∀ (i : Nat) (x y : Acc), g.acc[i]? = some x → fl.sums[i]? = some y → err.deltas = [] →
          g'.acc[i]? = some (⟨if 1 < g.passes then (x.v + y.v) / 2 ^ 36 * 2 ^ 36 else x.v + y.v, spJoin x.sp y.sp⟩ : Acc)) ∧
    (∀ fl rest err, m.flights = fl :: rest → bit nd.fault 63 = false → badRowsOf fl err ≠ [] →
      ∃ t, exec (.passComplete n err) s = .next t ∧ (t.node n).halted = true ∧ (t.node n).pat.veto = true ∧ fld (t.node n).fault 7 0 = 0x10 ∧
        (t.node n).mc.ckMismatch = satAdd m.ckMismatch 1 ∧ ∀ d ∈ (t.node n).mc.drains, d.g ≠ fl.g) ∧
    (∀ c, readyRelease nd [] m.window = some c →
      ∃ t, exec (.releaseTakesEffect n) s = .next t ∧ keeps t ∧ (t.node n).pat = nd.pat ∧ (t.node n).events = nd.events + 1 ∧
        (t.node n).pad = { nd.pad with filled := (t.node n).pad.filled } ∧
        (∀ k, k < 12288 → (t.node n).pad.filled.getLsbD k = (nd.pad.filled.getLsbD k && !(releaseSlots c.word).contains k))) ∧
    ∀ i e r rs, i < 16 → m.loopWait = some i → (loopTable nd.pat nd.pat.active)[i]? = some e → (nd.inEp e.ep).recs = r :: rs →
      rhToken r.hdr ≠ 4 → inMode (nd.inEp e.ep).desc = 2 → (nd.inEp e.ep).creditWay = none →
      let v := rhTokval r.hdr
      let f := giveCount nd.pat (m.pos nd.pat.active) i v
      ∃ t, exec (.loopTableToken n i) s = .next t ∧ otherNodes n s t ∧ (t.node n).mc.fetch = f.idx ∧ (t.node n).mc.loops = f.loops ∧
        (t.node n).mc.loopWait = f.wait ∧ ((t.node n).inEp e.ep).recs = rs ∧ ((t.node n).inEp e.ep).credit = (nd.inEp e.ep).credit + 1 ∧
        Table.get 0 (t.node n).pat.runRates e.rate = satAdd (Table.get 0 nd.pat.runRates e.rate) v

/-- R51 to R54, R76, R85, R90 to R96, R169, R341 to R343: a DRAIN issued, resumed and released. -/
def Obligations.DrainResults : Prop :=
  ∀ (n : NodeId) (s : State), isM n = true → (s.node n).live = true → (s.node n).mc.run = true →
    let nd := s.node n
    let m := nd.mc
    (∀ c, nextDrain nd = some c → let g := m.group (fld c.word 123 122)
      let dest := fld c.word 115 113
      let code := fld c.word 121 118
      let units := if dest = 0 then [] else operandUnits c.daddr (fld c.word 86 79) (footprint code) (g.mrows + 1) (g.ncols + 1)
      let ops := cuffOps (c.cuff.getD [])
      g.passes ≤ g.completed → m.drains.any (·.waiting) = false → drainFault nd c.word g c.cuff ops units = none →
      (∀ o ∈ ops, o.1 ≠ 1 ∧ o.1 ≠ 2) →
      let d := (drainTile nd c g ops units).1
      let room := ftqRoom m d
      ∃ t, exec (.drainIssue n false none) s = .next t ∧ onlyNode n s t ∧ (t.node n).pad = nd.pad ∧
        (t.node n).pat = { nd.pat with runWork := satAdd nd.pat.runWork (128 * (g.mrows + 1)) } ∧
        (t.node n).mc.drains = m.drains ++ [{ d with waiting := !room }] ∧ d.dest = dest ∧ d.fmt = code ∧
        d.blocks.length = (g.mrows + 1) * (g.ncols + 1) ∧ (t.node n).mc.drainCycles = satAdd m.drainCycles (128 * (g.mrows + 1)) ∧
        (room = true → (t.node n).mc.ftqUsed = m.ftqUsed + d.need.1 ∧ (t.node n).mc.group (fld c.word 123 122) = {}) ∧
        (room = false → (t.node n).mc.ftqUsed = m.ftqUsed ∧ (t.node n).mc.group (fld c.word 123 122) = g)) ∧
    (∀ d, m.drains.find? (·.waiting) = some d → ftqRoom m d = true →
      ∃ t, exec (.drainResume n) s = .next t ∧ onlyNode n s t ∧ (t.node n).pad = nd.pad ∧ (t.node n).pat = nd.pat ∧
        (t.node n).mc.ftqUsed = m.ftqUsed + d.need.1 ∧ (t.node n).mc.maskUsed = m.maskUsed + d.need.2 ∧
        (∀ x ∈ (t.node n).mc.drains, x.waiting = false) ∧ (t.node n).mc.group d.g = {}) ∧
    ∀ d, m.drains.find? (fun d => !d.released) = some d → d.waiting = false → 1 ≤ d.dest → d.dest ≤ 3 → d.masks = [] → d.keeps = [] → m.drains = [d] →
      nd.pad.bytes.wf = true → (∀ k ∈ d.slots, (nd.pad.tagged.getLsbD k && nd.pad.filled.getLsbD k) = false) →
      ∃ t, exec (.tileRelease n) s = .next t ∧ onlyNode n s t ∧ (t.node n).mc.drains = [] ∧ (t.node n).mc.tilesReleased = m.tilesReleased ∧
        (∀ k, k < 12288 → (t.node n).pad.filled.getLsbD k = (nd.pad.filled.getLsbD k || d.slots.contains k)) ∧
        ∀ b, (∀ u ∈ d.units, b < unitAddr (destPad d.dest) u ∨ unitAddr (destPad d.dest) u + 512 * footprint d.fmt ≤ b) →
          (∀ x ∈ d.blocks, x.1.length ≤ 512 * footprint d.fmt) → (t.node n).pad.byteAt b = nd.pad.byteAt b

/-- R87, R229 to R232, R302: MARK issued, waiting for the commit of the step before, and completed, by kind of node. -/
def Obligations.MarkResults : Prop :=
  ∀ (n : NodeId) (s : State) (p : Nat), (s.node n).part = some p →
    let nd := s.node n
    let step := nd.pat.current.toNat
    let may := nd.pat.committed + 1 = nd.pat.current ∧ seamReady nd = false
    let waits (x : Instr) : Prop := nd.pat.committed + 1 ≠ nd.pat.current → ∃ t, exec x s = .next t ∧ onlyNode n s t ∧
      t.node n = { nd with pat := { nd.pat with phase := .waitCommit } }
    let ends (x : Instr) (extra : Nat) (own : State → Prop) : Prop := ∃ t, exec x s = .next t ∧ otherNodes n s t ∧ (∀ q, q ≠ p → t.part q = s.part q) ∧
      stepEnded n extra s t ∧ (t.node n).pat.home = nd.pat.home ∧ (t.node n).pat.ctag = nd.pat.ctag ∧ (∀ e, ((t.node n).inEp e).returned = 0) ∧
      (∀ e o, Table.find? nd.outs e = some o → ∃ o', Table.find? (t.node n).outs e = some o' ∧ o'.marks = o.marks ++ [(step, o.finalPtr, o.seq.toNat)]) ∧ own t
    (vReady n s → ∃ t, exec (.vMark n 0) s = .next t ∧ onlyNode n s t ∧ t.node n = { nd with core := { nd.core with blocked := some .mark } }) ∧
    (isVec n = true → nd.core.blocked = some .mark → nd.canComplete = true → nd.core.posted = [] → ∀ a b, waits (.vMarkComplete n a b) ∧
      (may → nd.core.patrolDue = false → ends (.vMarkComplete n a b) 1 (fun t => onlyNodeAndFlight n s t ∧ freshCore (t.node n).core (t.node n).pat (step + 1)))) ∧
    (isM n = true → nd.canComplete = true → nd.mc.flights = [] → nd.mc.drains = [] →
      ∀ c rest, nd.mc.window = c :: rest → fld c.word 127 124 = 5 →
        (nd.mc.groups.any (fun g => g.2.isOpen) = true → bit nd.fault 63 = false → ∃ t, exec (.mMarkComplete n) s = .next t ∧ onlyNode n s t ∧
          (t.node n).halted = true ∧ (t.node n).pat.veto = true ∧ fld (t.node n).fault 7 0 = 0x06) ∧
        (nd.mc.groups.any (fun g => g.2.isOpen) = false → waits (.mMarkComplete n) ∧
          (may → ends (.mMarkComplete n) 0 (fun t => onlyNodeAndFlight n s t ∧ freshSeq (t.node n).mc (t.node n).pat)))) ∧
    (isL n = true → nd.canComplete = true → (nd.pat.phase = .inStep ∨ nd.pat.phase = .waitCommit) → (∀ e ∈ stepSet nd.pat, e ∈ nd.ln.stepEnds) →
      (∀ m ∈ nd.ln.outbox, m.src ∉ stepSet nd.pat) → waits (.lMarkComplete n) ∧
      (may → ends (.lMarkComplete n) 0 (fun t => (t.node n).ln.stepEnds = [] ∧ (t.node n).ln.appended = [] ∧ (t.node n).ln.bobbins = nd.ln.bobbins)))

/-- R105 to R107, R408 to R411: the core patrol begun, put off, passed and failed, and the array diagnostic. -/
def Obligations.PatrolAndDiagnostic : Prop :=
  ∀ (n : NodeId) (s : State), nodeExists n = true →
    let nd := s.node n
    let k := panelOf n
    let q := s.panel k
    (∀ panel, panel < 42 → let cores := (panelNodes panel).filter (fun m => kindOf m == .v || kindOf m == .f)
      ∀ a b, ∃ t, exec (.patrolStart panel a b) s = .next t ∧ cores.length = 52 ∧ (t.panel panel).patrolNext = ((s.panel panel).patrolNext + 1) % 52 ∧
        ∀ m, cores[(s.panel panel).patrolNext]? = some m → let d := s.node m
          (∀ p, d.part = some p → (s.part p).state = .running → d.fenced = false → d.resetting = false → d.parked = false →
            (t.node m).core.patrolDue = true ∧ (t.node m).core = { d.core with patrolDue := true } ∧ otherNodes m s t) ∧
          (d.part = none → d.fenced = false → d.resetting = false → d.parked = false → testDivider (s.panel panel).core = true →
            (a = true → (t.node m).fenced = false ∧ (t.panel panel).patrolFails = (s.panel panel).patrolFails ∧ (t.node m).core.tiles = [] ∧ (t.node m).core.preds = []) ∧
            (a = false → b = true → (t.node m).fenced = false ∧ (t.panel panel).patrolFails = satAdd (s.panel panel).patrolFails 1) ∧
            (a = false → b = false → (t.node m).fenced = true ∧ (t.entry m).state = 1 ∧ (t.entry m).code = 0x21))) ∧
    (isVec n = true → nd.core.patrolDue = true → ∃ t, exec (.patrolDefer n) s = .next t ∧
      t = { s with nodes := t.nodes, panels := t.panels } ∧ otherNodes n s t ∧ t.node n = { nd with core := { nd.core with patrolDue := false } } ∧
      t.panel k = { q with patrolDeferred := satAdd q.patrolDeferred 1 }) ∧
    (isVec n = true → nd.core.blocked = some .mark → nd.canComplete = true → nd.core.posted = [] → nd.pat.committed + 1 = nd.pat.current → nd.core.patrolDue = true →
      testDivider q.core = true → ∀ p, nd.part = some p →
        ∃ t, exec (.vMarkComplete n false false) s = .next t ∧ (t.node n).fenced = true ∧ (t.entry n).code = 0x21 ∧ (t.node n).pat.current = nd.pat.current ∧
          t.flight = s.flight) ∧
    (isM n = true → nd.mc.diagDue = some (true, true) → nd.fenced = false → nd.part = none →
      (∀ rows cols, (∀ x ∈ rows ++ cols, x < 512 ∧ x ∉ nd.mc.badRows ∧ x ∉ nd.mc.badCols) → rows.length ≤ 1 → cols.length ≤ 1 →
        nd.mc.badRows = [] → nd.mc.badCols = [] → nd.mc.rowRep = [] → nd.mc.colRep = [] → testDivider q.core = true →
        ∃ t, exec (.arrayDiagnostic n rows cols) s = .next t ∧ otherNodes n s t ∧
          t.node n = { nd with mc := { nd.mc with diagDue := none, badRows := rows, badCols := cols
                                                  rowRep := rows.map (fun x => (0, x)), colRep := cols.map (fun x => (0, x)) } } ∧
          (rows ++ cols ≠ [] → (t.entry n).repairs = rows.length + cols.length ∧ (t.entry n).state = (s.entry n).state)) ∧
      (∀ x, x < 512 → x ∉ nd.mc.badRows → testDivider q.core = true → (∀ j, j < 8 → (Table.has nd.mc.rowRep j || nd.mc.badRows.contains (512 + j)) = true) →
        ∃ t, exec (.arrayDiagnostic n [x] []) s = .next t ∧ (t.node n).fenced = true ∧ (t.entry n).state = 1 ∧ (t.entry n).code = 0x14))

/-- R166, R181, R184 to R187, R191, R197, R198, R225, R248, R363, R391, R547, R548, R673: records at a node and at the Host hem. -/
def Obligations.RecordArrivalResults : Prop :=
  ∀ (s s1 : State) (k : Packet), k.aborted = false → rtType k.route = tyRecord →
    let h := k.pay
    let data := k.data.take (rhLen h)
    (∀ n, nodeExists n = true → takes (.node n) (fun k => rtType k.route == tyRecord) k s s1 → (s.node n).fenced = false →
      let nd := s.node n
      (inEpOf nd (rhX h) (rhY h) (rhEp h) = none → ∃ t, exec (.recordArrival (.node n)) s = .next t ∧ otherNodes n s t ∧ (t.node n).ins = nd.ins ∧
        (t.node n).pad = { nd.pad with ownerRefused := satAdd nd.pad.ownerRefused 1 } ∧
        ∃ a, t.flight = s1.flight ++ [a] ∧ rtType a.route = tyNack ∧ a.pay = nackPay 3 tyRecord (rhEp h) (rhSeq h) n) ∧
      ∀ ep, inEpOf nd (rhX h) (rhY h) (rhEp h) = some ep →
        let e := nd.inEp ep
        let base := inStart n e.desc
        let deposit (at' : Nat) (own : Ep → Node → Prop) : Prop := nd.pad.ownedBy at' (rtOwner k.route) = true → e.broken = false → rhSeq h = e.seq.toNat →
          ∃ t, exec (.recordArrival (.node n)) s = .next t ∧ otherNodes n s t ∧ (∀ i, i ≠ ep → (t.node n).inEp i = nd.inEp i) ∧ (t.node n).outs = nd.outs ∧
            (t.node n).pat = { nd.pat with veto := nd.pat.veto || rhPoison h
                                           sealed := if rhKind h = 1 ∧ rhToken h = 4 then setBits nd.pat.sealed ep 1 true else nd.pat.sealed } ∧
            let e' := (t.node n).inEp ep
            (rhKind h ≠ 2 → e'.seq = e.seq + 1 ∧ e'.msgs = satAdd e.msgs 1) ∧ (rhKind h = 2 → e'.seq = e.seq ∧ e'.msgs = e.msgs) ∧
            e'.bytes = satAdd e.bytes data.length ∧ e'.tokens = (if rhKind h = 1 then satAdd e.tokens 1 else e.tokens) ∧
            e'.desc = e.desc ∧ e'.creditWay.isSome = true ∧ own e' (t.node n)
        (nd.pad.ownedBy (if inMode e.desc = 1 then base + e.wptr else base + 64 * rhWoff h) (rtOwner k.route) = true → e.broken = false → rhSeq h ≠ e.seq.toNat →
          bit nd.fault 63 = false →
          ∃ t, exec (.recordArrival (.node n)) s = .next t ∧ otherNodes n s t ∧ ((t.node n).inEp ep).broken = true ∧ fld (t.node n).fault 7 0 = 0x18 ∧
            (t.node n).halted = true ∧ ((t.node n).inEp ep).recs = e.recs ∧ (t.node n).pad = nd.pad) ∧
        (inMode e.desc = 1 → nd.pad.bytes.wf = true →
          (rhKind h ≠ 2 → deposit (base + e.wptr) (fun e' d => e'.recs = e.recs ++ [⟨storedHdr h, base + e.wptr + 64, recBytes data.length, []⟩] ∧
            e'.wptr = (if e.wptr + recBytes data.length = inBytes e.desc then 0 else e.wptr + recBytes data.length) ∧ e'.skips = e.skips ∧
            (∀ i, i < data.length → d.pad.byteAt (base + e.wptr + 64 + i) = data.getD i 0) ∧
            ∀ b, b < base + e.wptr ∨ base + e.wptr + recBytes data.length ≤ b → d.pad.byteAt b = nd.pad.byteAt b)) ∧
          (rhKind h = 2 → e.recs ≠ [] → (∀ r, e.recs.head? = some r → r.shown = true) →
            deposit (base + e.wptr) (fun e' _ => e'.recs = e.recs ++ [⟨storedHdr h, base + e.wptr, inBytes e.desc - e.wptr, []⟩] ∧
            e'.wptr = 0 ∧ e'.skips = satAdd e.skips 1))) ∧
        (inMode e.desc = 2 → rhKind h = 1 → deposit (base + 64 * rhWoff h) (fun e' d => e'.recs = e.recs ++ [⟨storedHdr h, 0, 0, []⟩] ∧ d.pad = nd.pad)) ∧
        (inMode e.desc = 2 → rhKind h = 0 → kindOf n ≠ .m → nd.pad.bytes.wf = true → 64 * rhWoff h + data.length ≤ inBytes e.desc →
          let a := base + 64 * rhWoff h
          nd.pad.undrained a data.length = none →
          deposit a (fun e' d => (∀ i, i < data.length → d.pad.byteAt (a + i) = data.getD i 0) ∧
            (∀ b, b < a ∨ a + data.length ≤ b → d.pad.byteAt b = nd.pad.byteAt b) ∧ e'.wptr = e.wptr ∧
            (if rhFill h then d.pad = (nd.pad.write a data).fill (slotsOf a data.length) else d.pad = nd.pad.write a data) ∧
            e'.recs = if rhFill h && rhNotify h then e.recs ++ [⟨storedHdr h, a, 0, slotsOf a data.length⟩] else e.recs))) ∧
    (takes (.hem (hostHemAt s)) (fun k => rtType k.route == tyRecord) k s s1 →
      let p := rtOwner k.route
      let e := s.hostOut p
      ∀ n ep, outProducer s p = some (n, ep) → rhX h = nx n → rhY h = ny n → rhEp h = ep → e.broken = false → rhSeq h = e.seq.toNat → rhKind h ≠ 2 →
        ¬ (rhKind h = 1 ∧ rhToken h = 3 ∧ rhTokval h = 0xFFFE) →
        ∃ t, exec (.recordArrival (.hem (hostHemAt s))) s = .next t ∧ t = { s1 with io := t.io } ∧
          t.io = { s.io with outs := t.io.outs, held := t.io.held, stepEnds := t.io.stepEnds, since := t.io.since } ∧
          t.io.heldOf p = s.io.heldOf p ++ [⟨storedHdr h, data, recBytes data.length⟩] ∧
          (t.hostOut p).seq = e.seq + 1 ∧ (t.hostOut p).msgs = satAdd e.msgs 1 ∧
          (t.hostOut p).wptr = (if e.wptr + recBytes data.length = 0x40000 then 0 else e.wptr + recBytes data.length) ∧
          (∀ q, q ≠ p → t.hostOut q = s.hostOut q ∧ t.io.heldOf q = s.io.heldOf q))

/-- R188, R191, R198, R391: a credit and a NACK at a node and at the Host hem, and the credit a timeout returns. -/
def Obligations.CreditAndNackResults : Prop :=
  ∀ (s s1 : State) (k : Packet),
    (∀ n, nodeExists n = true → kindOf n ≠ .c → (s.node n).fenced = false →
      let nd := s.node n
      (takes (.node n) (fun k => rtType k.route == tyCredit && !k.aborted) k s s1 → nd.ln.outbox = [] → nd.mc.drains = [] →
        let ep := fld k.pay 127 120
        let o := nd.outEp ep
        let a := fld k.pay 111 92
        o.loQ = [] → outMode o.desc ≠ 0 →
        ∃ t, exec (.creditArrival (.node n)) s = .next t ∧ t = { s1 with nodes := t.nodes } ∧ otherNodes n s t ∧
          (∀ i, i ≠ ep → (t.node n).outEp i = nd.outEp i) ∧ (t.node n).outEp ep = { o with credit := o.credit + (if outMode o.desc = 1 then 64 * a else a) } ∧
          (t.node n).ins = nd.ins ∧ (t.node n).pad = nd.pad ∧ (t.node n).core = nd.core ∧ (t.node n).pat = nd.pat) ∧
      (takes (.node n) (fun k => rtType k.route == tyNack && !k.aborted) k s s1 → bit nd.fault 63 = false →
        let ep := fld k.pay 115 108
        (fld k.pay 123 116 = tyRecord → (nd.outEp ep).broken = false →
          ∃ t, exec (.nackArrival (.node n)) s = .next t ∧ t = { s1 with nodes := t.nodes } ∧ otherNodes n s t ∧ ((t.node n).outEp ep).broken = true ∧
            (∀ i, i ≠ ep → (t.node n).outEp i = nd.outEp i) ∧ (t.node n).ins = nd.ins ∧ fld (t.node n).fault 7 0 = 0x18 ∧ (t.node n).halted = true ∧
            (t.node n).pat.veto = true) ∧
        (fld k.pay 123 116 = tyCredit → (nd.inEp ep).broken = false →
          ∃ t, exec (.nackArrival (.node n)) s = .next t ∧ t = { s1 with nodes := t.nodes } ∧ otherNodes n s t ∧ ((t.node n).inEp ep).broken = true ∧
            (∀ i, i ≠ ep → (t.node n).inEp i = nd.inEp i) ∧ (t.node n).outs = nd.outs ∧ fld (t.node n).fault 7 0 = 0x18 ∧ (t.node n).halted = true)) ∧
      (∀ ep, ep < epCount n → let e := nd.inEp ep
        e.credit ≠ 0 → ∀ w, e.creditWay = some w → inMode e.desc = 1 →
        ∃ t, exec (.creditReturnTimeout n ep) s = .next t ∧ otherNodes n s t ∧ t = { s with nodes := t.nodes, flight := t.flight, nextPid := t.nextPid } ∧
          (t.node n).inEp ep = { e with credit := 0 } ∧ (∀ i, i ≠ ep → (t.node n).inEp i = nd.inEp i) ∧ (t.node n).outs = nd.outs ∧ (t.node n).pad = nd.pad ∧
          ∃ route, rtType route = tyCredit ∧ injects n [(route, mkWord 128 [(120, fld e.desc 111 104), (112, ep), (92, e.credit / 64)], [])] s t)) ∧
    (takes (.hem (hostHemAt s)) (fun k => rtType k.route == tyCredit && !k.aborted) k s s1 →
      let key := hostKey (rtOwner k.route) (fld k.pay 127 120)
      let o := s.hostIn key
      outMode o.desc ≠ 0 → Table.get [] s.io.queue key = [] → o.blocked = false →
        ∃ t, exec (.creditArrival (.hem (hostHemAt s))) s = .next t ∧ t = { s1 with io := t.io } ∧
          t.hostIn key = { o with credit := o.credit + 64 * fld k.pay 111 92 } ∧ ∀ i, i ≠ key → t.hostIn i = s.hostIn i) ∧
    (takes (.hem (hostHemAt s)) (fun k => rtType k.route == tyNack && !k.aborted) k s s1 → fld k.pay 123 116 = tyRecord →
      let key := hostKey (rtOwner k.route) (fld k.pay 115 108)
      let o := s.hostIn key
      o.broken = false → outMode o.desc ≠ 0 →
        ∃ t, exec (.nackArrival (.hem (hostHemAt s))) s = .next t ∧ t.hostIn key = { o with broken := true } ∧
          t.stw.f.notes.length = s.stw.f.notes.length + 1 ∧ ∀ i, i ≠ key → t.hostIn i = s.hostIn i)

/-- R199 to R205, R233, R559: knot requests at their L node, their answers, the resend of a WAIT, and a reply at the Host hem. -/
def Obligations.KnotServiceResults : Prop :=
  ∀ (s s1 : State) (k : Packet),
    (∀ n, isL n = true → takes (.node n) (fun k => rtType k.route == tyKnot && !k.aborted && fld k.pay 127 124 != 8) k s s1 →
      let l := lIndex n
      let p := fld k.pay 123 120
      let id := fld k.pay 119 104
      let v := fld k.pay 63 32
      let x := s.knot id
      let slot := id % 256
      let answers (status count : Nat) (t : State) : Prop := ∃ a, s1.flight ++ [a] <+: t.flight ∧ a.at' = n ∧ rtType a.route = tyKnot ∧
        a.pay = setFld (setFld (setFld k.pay 127 124 8) 79 72 status) 31 0 count
      let rows : List (Instr × Nat) := [(.knotArriveReq n, 1), (.knotAddReq n, 2), (.knotWaitReq n, 3), (.knotResetReq n, 4)]
      (id / 256 = l → x.alloc = true → x.part = p → ¬ ((s.part p).pl.commitHome = n ∧ (id = (s.part p).pl.stepKnots.1 ∨ id = (s.part p).pl.stepKnots.2)) →
        (∀ row ∈ rows, fld k.pay 127 124 = row.2 → row.2 ≠ 3 →
          let sum := x.count.toNat + (if row.2 = 1 then 1 else v)
          let c : Nat := if row.2 = 4 then v else min sum (2 ^ 32 - 1)
          ∃ t, exec row.1 s = .next t ∧ (t.knot id).count.toNat = c ∧ (t.knot id).alloc = true ∧ (t.knot id).part = p ∧
            (t.knot id).sat = (if row.2 = 4 then false else x.sat || decide (2 ^ 32 ≤ sum)) ∧ answers 0 c t ∧
            (∀ i, i ≠ id → t.knot i = s.knot i) ∧
            t.flight.length = s1.flight.length + 1 + ((s.ln l).waits.filter (fun w => w.slot == slot && decide (w.v ≤ c))).length ∧
            (t.ln l).waits = (s.ln l).waits.filter (fun w => !(w.slot == slot && decide (w.v ≤ c)))) ∧
        (fld k.pay 127 124 = 3 →
          (v ≤ x.count.toNat → ∃ t, exec (.knotWaitReq n) s = .next t ∧ answers 0 x.count.toNat t ∧ t.nodes = s.nodes ∧ t.flight.length = s1.flight.length + 1) ∧
          (x.count.toNat < v → (s.ln l).waits.length < 1024 → ∃ t, exec (.knotWaitReq n) s = .next t ∧ t.flight = s1.flight ∧
            (t.ln l).waits = (s.ln l).waits ++ [⟨slot, v, k.route, k.pay⟩] ∧ t.knot id = x) ∧
          (x.count.toNat < v → 1024 ≤ (s.ln l).waits.length → ∃ t, exec (.knotWaitReq n) s = .next t ∧ answers 2 x.count.toNat t ∧ t.nodes = s.nodes))) ∧
      ((x.alloc = false ∨ x.part ≠ p) → id / 256 = l → ∀ row ∈ rows, fld k.pay 127 124 = row.2 →
        ∃ t, exec row.1 s = .next t ∧ answers 1 x.count.toNat t ∧ t.nodes = s.nodes ∧ t.flight.length = s1.flight.length + 1)) ∧
    (∀ n kn v tk, nodeExists n = true → (s.node n).core.retry = some (kn, v, tk) →
      ∃ t, exec (.knotRetryResend (.node n)) s = .next t ∧ otherNodes n s t ∧ (t.node n).core.retry = none ∧
        (t.node n).pad = { (s.node n).pad with knotRetries := satAdd (s.node n).pad.knotRetries 1 } ∧
        sends n tyKnot (((s.node n).part).getD 16) (lNode (kn / 256)) (knotPay 3 (((s.node n).part).getD 16) kn tk n 0 v 0) [] s t) ∧
    (∀ y rest, s.io.knotRetry = y :: rest → ∃ t, exec (.knotRetryResend (.hem (hostHemAt s))) s = .next t ∧ t.io = { s.io with knotRetry := rest } ∧
      ∃ a, t.flight = s.flight ++ [a] ∧ rtType a.route = tyKnot ∧ fld a.pay 127 124 = 3 ∧ fld a.pay 119 104 = fld y 119 104 ∧ fld a.pay 103 96 = fld y 103 96 ∧
        fld a.pay 63 32 = fld y 63 32) ∧
    (takes (.hem (hostHemAt s)) (fun k => rtType k.route == tyKnot && !k.aborted && fld k.pay 127 124 == 8) k s s1 →
      (fld k.pay 79 72 = 2 → (s.io.knots.any (fun x => x.1 == fld k.pay 103 96)) = true →
        ∃ t, exec (.knotReply (.hem (hostHemAt s))) s = .next t ∧ t = { s1 with io := { s.io with knotRetry := s.io.knotRetry ++ [k.pay] } }) ∧
      (fld k.pay 79 72 ≠ 2 → ∀ f r e, s.io.knots = [(fld k.pay 103 96, f, r, e)] →
        ∃ t, exec (.knotReply (.hem (hostHemAt s))) s = .next t ∧ t.io = { s.io with knots := [] } ∧ t.flight = s1.flight ∧ t.nodes = s.nodes ∧
          completes f r e (if fld k.pay 79 72 = 1 then 0x02000001 else if fld k.pay 79 72 = 3 then 0x06000002 else 0) (fld k.pay 31 0) s t))

/-- R233, R234; R235, R406: what the commit home does when the last ARRIVE, or a veto, reaches a step knot; the steward's answer to a vetoed step: the
replay of R235, and the limit on replays of one step. -/
def Obligations.CommitAndReplayResults : Prop :=
  (∀ (n : NodeId) (s s1 : State) (k : Packet), isL n = true →
    takes (.node n) (fun k => rtType k.route == tyKnot && !k.aborted && fld k.pay 127 124 != 8) k s s1 → fld k.pay 127 124 = 1 →
    let p := fld k.pay 123 120
    let id := fld k.pay 119 104
    let x := s.knot id
    let q := s.part p
    let t := ((s.node n).pat.committed + 1).toNat
    let c := x.count + 1
    id / 256 = lIndex n → x.alloc = true → x.part = p → x.count ≠ 0xFFFFFFFF → q.pl.commitHome = n → id = stepKnot s p t → q.state = .running →
      q.tr.vetoed ≠ some t → q.tr.hang = none → (s.cfg p).mirror = false → (s.cfg p).mirrorPeer = 0xFF → (s.cfg p).digestAll = false → (s.cfg p).faultModel = 0 →
      (fld c 31 16 = 0 → fld c 15 0 = q.pl.region.length → ∃ r a, exec (.knotArriveReq n) s = .next r ∧ (r.knot id).count = 0 ∧ (r.knot id).sat = false ∧
        (∀ i, i ≠ id → r.knot i = s.knot i) ∧ (r.part p).tr = q.tr ∧
        r.flight.getLast? = some a ∧ a.at' = n ∧ a.pay = stepPay 1 p t ∧ a.route = mkRoute n ⟨s.stewardAt, 0⟩ (detourWay s n s.stewardAt p) tyStep 0 p (flitsOf 0)) ∧
      (fld c 31 16 ≠ 0 → fld c 15 0 = q.pl.region.length → ∃ r, exec (.knotArriveReq n) s = .next r ∧ (r.knot id).count = c ∧ (r.part p).tr.vetoed = some t ∧
        ∀ a ∈ r.flight, a ∈ s1.flight ∨ rtType a.route = tyKnot) ∧
      (fld c 15 0 ≠ q.pl.region.length → ∃ r, exec (.knotArriveReq n) s = .next r ∧ (r.knot id).count = c ∧ r.parts = s.parts ∧
        ∀ a ∈ r.flight, a ∈ s1.flight ∨ rtType a.route = tyKnot)) ∧
  (∀ (p : Nat) (s : State), p < 16 → let x := s.part p
    x.tr.vetoed.isSome = true → x.state = .running → x.tr.hang = none →
    let n := if x.tr.replayStep = x.next then x.tr.replayCount else 0
    (8 ≤ n → ∃ t, exec (.stepVetoReport p) s = .next t ∧ (t.part p).state = .faulted ∧ (t.part p).reason = 0x08 ∧
      ∀ m ∈ x.pl.region, (s.node m).fenced = false → (t.node m).pat.phase = .stopped) ∧
    (n < 8 → x.seam = none → x.mir.restoring = [] → commitsInFlight s p = [] → (∀ l ∈ (s.cfg p).lnodes, (s.ln l).poison = []) →
      (∀ l ∈ (s.cfg p).lnodes, (s.ln l).cache = []) →
      ∃ t, exec (.stepVetoReport p) s = .next t ∧ (t.part p).state = .running ∧ (t.part p).tr.replayCount = n + 1 ∧ (t.part p).tr.replayStep = x.next ∧
        (t.part p).tr.vetoed = none ∧ (t.part p).committed = x.committed ∧
        (x.pl.stepKnots.1 / 256 < 252 → x.pl.stepKnots.2 / 256 < 252 → (t.knot x.pl.stepKnots.1).count = 0 ∧ (t.knot x.pl.stepKnots.2).count = 0) ∧
        (∀ m, m ∉ x.pl.region → (t.node m).core = (s.node m).core ∧ (t.node m).mc = (s.node m).mc ∧ (t.node m).pad = (s.node m).pad) ∧
        (∀ a ∈ t.flight, rtOwner a.route = p → rtTclass a.route = 3 ∨ rtType a.route ∉ [tyRecord, tyCredit, tyNack, tyKnot]) ∧
        ∀ m ∈ x.pl.region, (s.node m).fenced = false →
          let d := t.node m
          d.pat.current = (s.node x.pl.commitHome).pat.committed + 1 ∧ d.pat.phase = .inStep ∧ d.halted = false ∧ d.pat.veto = false ∧ d.pat.active = d.pat.home ∧
          (∀ e, (d.inEp e).recs = [] ∧ (d.inEp e).broken = false ∧ (d.inEp e).returned = 0 ∧ (d.outEp e).loQ = [] ∧ (d.outEp e).broken = false) ∧
          (isVec m = true → freshCore d.core d.pat d.pat.current.toNat) ∧ (isM m = true → freshSeq d.mc d.pat)))

/-- R232, R234, R236, R295, R322, R323, R241, R404: STEP packets at nodes and at the steward. -/
def Obligations.StepPacketResults : Prop :=
  ∀ (s s1 : State) (k : Packet),
    let p := fld k.pay 123 120
    let step := fld k.pay 119 88
    (∀ n, nodeExists n = true → n ≠ s.stewardAt → takes (.node n) (isStepSub 1) k s s1 → (s.node n).part = some p → (s.node n).fenced = false →
      let nd := s.node n
      nd.pat.committed + 1 = BitVec.ofNat 32 step →
        ∃ t, exec (.stepCommitArrival (.node n)) s = .next t ∧ otherNodes n s t ∧ t.flight = s1.flight ∧
          (t.node n).pat = { nd.pat with committed := BitVec.ofNat 32 step, phase := if nd.pat.phase = .waitCommit then .inStep else nd.pat.phase } ∧
          (∀ e o, Table.find? nd.outs e = some o → ∃ o', Table.find? (t.node n).outs e = some o' ∧
            o'.committed = ((o.marks.find? (fun m => m.1 == step)).map (·.2)).getD o.committed ∧ (∀ m ∈ o'.marks, step < m.1) ∧ o'.seq = o.seq ∧ o'.credit = o.credit) ∧
          (kindOf n ≠ .l → t = { s1 with nodes := t.nodes } ∧ (t.node n).core = nd.core ∧ (t.node n).pad = nd.pad ∧ (t.node n).mc = nd.mc) ∧
          (kindOf n = .l → nd.ln.sealedPages = [] → ∀ e b, nd.ln.bobbins = [(e, b)] → b.state ≠ 2 → b.codec ≠ 2 →
            (t.node n).ln.bobbins = [(e, { b with length := max b.length (if step % 2 = 0 then b.end0 else b.end1)
                                                  end0 := if step % 2 = 0 then 0 else b.end0, end1 := if step % 2 = 0 then b.end1 else 0 })])) ∧
    (takes (.node s.stewardAt) (isStepSub 1) k s s1 → (s.part p).next = step → outProducer s p = none → (s.part p).jobEnd = none → (s.part p).pauseReq = none →
      ∃ t, exec (.stepCommitArrival (.node s.stewardAt)) s = .next t ∧ t.flight = s1.flight ∧ t.nodes = s.nodes ∧
        (t.part p).committed = BitVec.ofNat 32 step ∧ (t.part p).stepsSinceStart = (s.part p).stepsSinceStart + 1 ∧ (t.part p).state = (s.part p).state ∧
        (t.part p).tr.replayCount = 0 ∧ (t.part p).tr.vetoed = none ∧ ∀ q, q ≠ p → t.part q = s.part q) ∧
    (takes (.node s.stewardAt) (isStepSub 3) k s s1 → ∃ t, exec .timingReportReceipt s = .next t ∧ t = { s1 with parts := t.parts } ∧
      (let r := (s.part p).rep
       (t.part p).rep = if step ∈ r.marks then r else { r with
         timingSteps := satAdd r.timingSteps 1, firstTiming := if r.firstTiming = 0xFFFFFFFF then BitVec.ofNat 32 step else r.firstTiming
         marks := setIns r.marks step }) ∧
      ∀ q, q ≠ p → t.part q = s.part q) ∧
    (∀ n, nodeExists n = true → kindOf n ≠ .c → (s.node n).fenced = false →
      let nd := s.node n
      (takes (.node n) (isStepSub 2) k s s1 → ∃ t, exec (.seamOrderArrival n) s = .next t ∧ t = { s1 with nodes := t.nodes } ∧ otherNodes n s t ∧
        t.node n = { nd with pat := { nd.pat with seamOrder := true } }) ∧
      (takes (.node n) (fun k => isStepSub 4 k && decide (fld k.pay 119 88 < 0xFFFFFFFE)) k s s1 → nd.pat.phase ≠ .unloaded → nd.pat.phase ≠ .loaded →
        ∃ t, exec (.stopStep n) s = .next t ∧ t = { s1 with nodes := t.nodes } ∧ otherNodes n s t ∧ (t.node n).pat = { nd.pat with phase := .stopped, held := false } ∧
          (t.node n).core = { nd.core with blocked := none, posted := [], retry := none } ∧ (t.node n).mc.window = [] ∧ (t.node n).mc.flights = [] ∧
          (t.node n).mc.drains = [] ∧ (t.node n).mc.groups = [] ∧ (t.node n).ln = { nd.ln with outbox := [] } ∧ (t.node n).pad = nd.pad ∧
          (t.node n).ins = nd.ins ∧ (t.node n).outs = nd.outs) ∧
      (takes (.node n) (fun k => isStepSub 4 k && fld k.pay 119 88 == 0xFFFFFFFE) k s s1 → ∃ t, exec (.stopHold n) s = .next t ∧ t = { s1 with nodes := t.nodes } ∧
        otherNodes n s t ∧ t.node n = { nd with pat := { nd.pat with held := true } }) ∧
      (takes (.node n) (fun k => isStepSub 4 k && fld k.pay 119 88 == 0xFFFFFFFF) k s s1 → ∃ t, exec (.stopRelease n) s = .next t ∧ t = { s1 with nodes := t.nodes } ∧
        otherNodes n s t ∧ t.node n = { nd with pat := { nd.pat with held := false } }))

/-- R356 to R360, R391, R402; R407, R412, R674: flits received and refused, a port kept alive, and links lost; a link brought up again, and one that
is held. -/
def Obligations.LinkResults : Prop :=
  (∀ (r port : Nat) (s : State), isLink r port → ((s.router r).port port).state = 1 →
    let q := (s.router r).port port
    (∀ (f : Flit) (ok : Bool), ∃ t, exec (.flitReceive r port f false ok) s = .next t ∧ onlyPort r port s t ∧
      (t.router r).port port = { q with nakked := true, crcErrors := satAdd q.crcErrors 1 }) ∧
    (∀ (f : Flit), f.ack ≠ 2 →
      let used := Table.put q.used f.crVc (Table.get 0 q.used f.crVc - f.crCnt)
      let replay := if f.ack = 1 then ackFlits q.replay f.ackSeq.toNat else q.replay
      (f.null = true → ∀ ok, ∃ t, exec (.flitReceive r port f true ok) s = .next t ∧ onlyPort r port s t ∧ (t.router r).port port = { q with used := used, replay := replay }) ∧
      (f.null = false → f.fseq.toNat = q.rxSeq →
        let taken : Port := { q with
          used := used, replay := replay, rxSeq := (q.rxSeq + 1) % 256, nakked := false
          openPkt := if f.pos = 0 then Table.put q.openPkt f.vc f.pid else if f.pos = 2 then Table.del q.openPkt f.vc else q.openPkt }
        (∃ t, exec (.flitReceive r port f true true) s = .next t ∧ onlyPort r port s t ∧ (t.router r).port port = taken) ∧
        (∃ t, exec (.flitReceive r port f true false) s = .next t ∧ (t.router r).port port = taken ∧ t = { s with routers := t.routers, flight := t.flight } ∧
          (t.router r).badPackets = satAdd (s.router r).badPackets 1 ∧ (t.router r).abortedPackets = satAdd (s.router r).abortedPackets 1 ∧
          t.flight.length = s.flight.length ∧ ∀ (i : Nat) (k : Packet), s.flight[i]? = some k → t.flight[i]? = some (if k.id = f.pid then { k with aborted := true } else k))) ∧
      (f.null = false → f.fseq.toNat ≠ q.rxSeq → q.nakked = false → ∀ ok, ∃ t, exec (.flitReceive r port f true ok) s = .next t ∧ onlyPort r port s t ∧
        (t.router r).port port = { q with used := used, replay := replay, nakked := true, crcErrors := satAdd q.crcErrors 1 })) ∧
    (∀ seq : Byte, ∀ x, q.replay.find? (fun x => x.fseq == seq.toNat) = some x →
      (x.refused < 7 → ∃ t, exec (.nakReceive r port seq) s = .next t ∧ onlyPort r port s t ∧
        (t.router r).port port = { q with retries := satAdd q.retries 1
                                          replay := q.replay.map (fun y => if y.fseq = seq.toNat then { y with refused := y.refused + 1 } else y) }) ∧
      (7 ≤ x.refused → hemAt r port = none → ∃ t, exec (.nakReceive r port seq) s = .next t ∧ ((t.router r).port port).state = 0 ∧
        ((t.router r).port port).retries = satAdd q.retries 1 ∧ ((t.router r).port port).replay = [])) ∧
    (heldLink s r port = false → ∃ t, exec (.nullKeepalive r port) s = .next t ∧ onlyPort r port s t ∧ (t.router r).port port = { q with nulls := q.nulls + 1 }) ∧
    (hemAt r port = none → ∀ x ∈ [Instr.linkIdleTimeout r port, .wardenLinkDown r port],
      ∃ t, exec x s = .next t ∧ t = { s with routers := t.routers, flight := t.flight } ∧ (∀ y, y ≠ r → t.router y = s.router y) ∧
        (t.router r).port port = { q with state := 0, replay := [], nakked := false, openPkt := [], used := [], downs := q.downs ++ [s.clock] } ∧
        (∀ p, p ≠ port → (t.router r).port p = (s.router r).port p) ∧ (t.router r).abortedPackets = satAdd (s.router r).abortedPackets q.openPkt.length ∧
        t.flight.length = s.flight.length ∧ ∀ (i : Nat) (k : Packet), s.flight[i]? = some k → t.flight[i]? = some (if q.openPkt.any (fun o => o.2 == k.id) then { k with aborted := true } else k))) ∧
  (∀ (r port m : Nat) (s : State), isLink r port → neighbour r port = some m → ((s.router r).port port).state = 0 → ((s.router r).port port).linkHeld = false →
    (s.router r).dead = false → (s.router m).dead = false →
    let often := 3 ≤ (((s.router r).port port).downs.filter (fun t => decide (s.clock < t + 3600 * msCycles 1000))).length
    (¬ often → ∃ t, exec (.linkRetrain r port true) s = .next t ∧
      (∀ e ∈ [(r, port), (m, oppPort port)], ((t.router e.1).port e.2).state = 1 ∧ ((t.router e.1).port e.2).replay = [] ∧ ((t.router e.1).port e.2).txSeq = 0 ∧
        ((t.router e.1).port e.2).rxSeq = 0) ∧
      t.stw.f.gen = (s.stw.f.gen + 1) % 2 ^ 32 ∧ t.nodes = s.nodes ∧ t.flight = s.flight) ∧
    (∀ trained, (trained = false ∨ often) → ∃ t, exec (.linkRetrain r port trained) s = .next t ∧
      (∀ e ∈ [(r, port), (m, oppPort port)], ((t.router e.1).port e.2).state = 0 ∧ ((t.router e.1).port e.2).linkHeld = true ∧
        Table.get 0 (t.entry e.1).links e.2 = 3) ∧
      t.stw.f.gen = (s.stw.f.gen + 1) % 2 ^ 32 ∧ t.stw.f.notes.length = s.stw.f.notes.length + 1 ∧ t.nodes = s.nodes ∧ t.flight = s.flight))

/-- R366 to R373, R387, R390 to R392; R375, R376, R390: one hop of a packet: on, delivered, refused at a node or discarded at a down port; copies of a
multicast are delivered to its owner's nodes in its rectangle, and to no other. -/
def Obligations.ForwardResults : Prop :=
  (∀ (k : Packet) (s : State), atRouter k s → rtMcast k.route = false →
    let r := k.at'
    let leg := rtWayEn k.route && !rtLeg k.route && rtWay k.route == r
    let route := if leg then setFld k.route 78 78 1 else k.route
    let target := if rtWayEn route && !rtLeg route then rtWay route else rtDst route
    let nd := s.node r
    let port := dimPort r target
    let moved (x : Packet) : Prop := ∃ t, exec (.packetForward k.id) s = .next t ∧ t.nodes = s.nodes ∧ t.nextPid = s.nextPid ∧ t.lining = s.lining ∧ t.bolt = s.bolt ∧
      t.flight.length = s.flight.length ∧ ∀ (i : Nat) (y : Packet), s.flight[i]? = some y → t.flight[i]? = some (if y.id = k.id then x else y)
    let others (t : State) : Prop := ∃ l, t.flight = s.flight.filter (fun y => y.id != k.id) ++ l ∧ l.length ≤ 1
    (target ≠ r → ∀ q, neighbour r port = some q → ((s.router r).port port).state = 1 →
      (heldLink s r port = false → maySend s r port route (1 + rtFlits route) = true → moved { k with route := route, at' := q, via := oppPort port }) ∧
      (heldLink s r port = true → moved { k with route := route })) ∧
    (target ≠ r → (∃ q, neighbour r port = some q) → ((s.router r).port port).state ≠ 1 →
      ∃ t, exec (.packetForward k.id) s = .next t ∧ others t ∧ (t.router r).linkdownDiscards = satAdd (s.router r).linkdownDiscards 1 ∧ t.nodes = s.nodes ∧
        (rtType route ∈ [tyRecord, tyCredit, tyStep, tyMgmt] → ∃ a, t.flight.getLast? = some a ∧ rtType a.route = tyNack ∧ fld a.pay 127 124 = 4) ∧
        (rtType route = tyReadReq → ∃ a, t.flight.getLast? = some a ∧ rtType a.route = tyReadResp ∧ mdStatus a.pay = 0x1B)) ∧
    (target = r → rtExit route = 0 → nd.fenced = false → nd.resetting = false → nd.parked = false → moved { k with route := route, out := some (.node r) }) ∧
    (target = r → rtExit route = 0 → nd.fenced = true →
      ∃ t, exec (.packetForward k.id) s = .next t ∧ others t ∧ (t.router r).fencedAbsorbed = satAdd (s.router r).fencedAbsorbed 1 ∧ t.nodes = s.nodes ∧
        (rtType route ∈ [tyRecord, tyCredit, tyStep, tyMgmt] → ∃ a, t.flight.getLast? = some a ∧ rtType a.route = tyNack ∧ fld a.pay 127 124 = 1) ∧
        (rtType route = tyNack → t.flight = s.flight.filter (fun y => y.id != k.id))) ∧
    (target = r → rtExit route ≠ 0 → ∀ place, exitPlace r (rtExit route) = some place →
      let out := if rtExit route = 1 then (if (hemAt r portS).isSome then portS else portN) else if (hemAt r portW).isSome then portW else portE
      ((s.router r).port out).state = 1 → heldLink s r out = false → maySend s r out route (1 + rtFlits route) = true → moved { k with route := route, out := some place })) ∧
  (∀ (k : Packet) (s : State), atRouter k s → rtMcast k.route = true →
    let reach := mcastReach s k.at' (fld k.route 50 45) (fld k.route 44 39) (fld k.route 38 33) (fld k.route 32 27)
    let ours (q : NodeId) : Bool := rtOwner k.route == 16 || (s.node q).part == some (rtOwner k.route)
    let able (q : NodeId) : Bool := !((s.node q).fenced || (s.node q).resetting || (s.node q).parked)
    ∃ t l, exec (.multicastForward k.id) s = .next t ∧ t.nodes = s.nodes ∧ t.flight = s.flight.filter (fun y => y.id != k.id) ++ l ∧
      l.map (fun x => (x.at', x.out)) = (reach.filter (fun q => ours q && able q)).map (fun q => (q, some (Place.node q))) ∧
      (∀ x ∈ l, x.route = k.route ∧ x.pay = k.pay ∧ x.data = k.data ∧ x.aborted = k.aborted) ∧
      (∀ q ∈ reach, fld k.route 50 45 ≤ nx q ∧ nx q ≤ fld k.route 44 39 ∧ fld k.route 38 33 ≤ ny q ∧ ny q ≤ fld k.route 32 27) ∧
      ∀ q, ((t.router q).fencedAbsorbed = (s.router q).fencedAbsorbed ∨ (q ∈ reach ∧ ours q = true ∧ able q = false)))

/-- R379, R380, R385, R386, R393, R394: budget and telemetry windows, and the end of a link hold. -/
def Obligations.WindowResults : Prop :=
  ∀ (s : State),
    (∀ r, nodeExists r = true → s.stw.d.gen ≠ 0 → ∃ t, exec (.budgetWindowStart r) s = .next t ∧ onlyRouter r s t ∧ (t.router r).ctrlSent = [] ∧
      (∀ o c, o < 17 → c < 16 → Table.get 0 (t.router r).map (16 * o + c) = budgetClass s.stw.d.active.activities o c) ∧
      ∀ p c, p < 5 → c < 8 → let a := budgetOf s.stw.d.active.activities c
        let h := if facesSlow s r p then 2 else 1
        let b : Budget := Table.get {} ((s.router r).port p).budgets c
        Table.get ({} : Budget) ((t.router r).port p).budgets c = { rate := a.1, cap := a.2.1, hard := a.2.2, tokens := min (b.tokens + a.1 / h) (a.2.1 / h) }) ∧
    (∀ panel sums, panel < 42 → (∀ x ∈ sums, nodeExists x.1 = true ∧ panelOf x.1 = panel) →
      ∃ t, exec (.telemetryWindowEnd panel sums) s = .next t ∧ t = { s with routers := t.routers, panels := t.panels, stw := t.stw } ∧
        (∀ x, panelOf x ≠ panel → t.router x = s.router x) ∧ (t.panel panel).wseq = ((s.panel panel).wseq + 1) % 2 ^ 32 ∧
        (t.panel panel).fabricChanged = false ∧ (t.panel panel).record.length = 1296 ∧ (∀ q, q ≠ panel → t.panel q = s.panel q) ∧
        (∀ r l, nodeExists r = true → panelOf r = panel → sums.find? (fun x => x.1 == r) = some (r, l) → ∀ p v, p < 5 → v < 8 → 0 < (s.router r).window →
          Table.get 0 ((t.router r).port p).cong v = min 15 (16 * l.getD (8 * p + v) 0 / ((s.router r).window * bufDepth r p v)))) ∧
    ∀ panel, panel < 42 → ∃ t, exec (.linkHoldEnd panel) s = .next t ∧ t = { s with panels := t.panels } ∧ (∀ q, q ≠ panel → t.panel q = s.panel q) ∧
      t.panel panel = { s.panel panel with linkHold := false }

/-- R259 to R264, R271, R275, R276, R282, R364, R540: module memory requests served at their node or hem, and their answers. -/
def Obligations.MemoryRequestResults : Prop :=
  ∀ (s s1 : State) (k : Packet) (at' : Place), placeOk at' = true →
    let a := mdAddr k.pay
    let len := mdLen k.pay
    let answered (ty status : Nat) (data : List Byte) (u t : State) : Prop := ∃ y : Packet, t.flight = u.flight ++ [y] ∧ y.at' = k.at' ∧ y.out = none ∧
      y.pay = memDesc a (mdTag k.pay) len status ∧ y.data = data ∧ y.route =
        mkRoute k.at' (answerDest k.route) ⟨rtWayEn k.route, nx (rtWay k.route), ny (rtWay k.route)⟩ ty (rtTclass k.route) (rtOwner k.route) (flitsOf data.length)
    let wire (t : State) : Prop := t = { s1 with flight := t.flight, nextPid := t.nextPid }
    let data := k.data.take len
    (takes at' (fun k => rtType k.route == tyReadReq && !k.aborted) k s s1 →
      (∀ m l off, at' = .node m → regionOf a = .lining l off → isL m = true → lIndex m = l → off + len ≤ 0x200000000 → (s.node m).fenced = false →
        (∀ ok, ∃ t, exec (.readReq at' none ok) s = .next t ∧ wire t ∧
          answered tyReadResp (if linPoisoned s (linBase l + off) len then 0x1E else 0) (s.lining.bytes (linBase l + off) len) s1 t) ∧
        (∀ w ok, linBase l + off ≤ w → w < linBase l + off + len → ∃ t, exec (.readReq at' (some w) ok) s = .next t ∧ otherNodes m s t ∧ t.lining = s.lining ∧
          (t.ln l).eccUncorrected = satAdd (s.ln l).eccUncorrected 1 ∧ w / 65536 % 131072 ∈ (t.ln l).poison ∧ (t.node m).pat.veto = true ∧
          (t.node m).halted = (s.node m).halted ∧ answered tyReadResp 0x1E (s.lining.bytes (linBase l + off) len) s1 t)) ∧
      (∀ m off, at' = .node m → regionOf a = .window m off → (s.node m).fenced = false → off + len ≤ padBytes m → protBanks (s.node m) off len = false →
        ∀ w ok, ∃ t, exec (.readReq at' w ok) s = .next t ∧ wire t ∧ answered tyReadResp 0 ((s.node m).pad.read off len) s1 t) ∧
      (∀ h p o, at' = .hem h → regionOf a = .bolt p o → (boltHem p).1 = h → boltLive s (a - 0x20000000000) = true →
        ∀ w ok, ∃ t, exec (.readReq at' w ok) s = .next t ∧ wire t ∧ answered tyReadResp 0 (s.bolt.bytes (a - 0x20000000000) len) s1 t) ∧
      (regionOf a = .none → ∀ w ok, ∃ t, exec (.readReq at' w ok) s = .next t ∧ wire t ∧ answered tyReadResp 0x1B (List.replicate len 0) s1 t)) ∧
    (takes at' (fun k => rtType k.route == tyWriteReq && !k.aborted) k s s1 →
      (∀ m l off, at' = .node m → regionOf a = .lining l off → isL m = true → lIndex m = l → off + data.length ≤ 0x200000000 →
        (∀ i, i < data.length → linOwner s l (off + i) = none) → s.lining.wf = true →
        ∃ t, exec (.writeReq at') s = .next t ∧ t = { s1 with flight := t.flight, nextPid := t.nextPid, lining := t.lining } ∧ answered tyWriteAck 0 [] s1 t ∧
          (∀ i, i < data.length → t.lining.byte (linBase l + off + i) = data.getD i 0) ∧
          ∀ b, (b < linBase l + off ∨ linBase l + off + data.length ≤ b) → t.lining.byte b = s.lining.byte b) ∧
      (∀ m off, at' = .node m → regionOf a = .window m off → (s.node m).fenced = false → off + data.length ≤ padBytes m → (s.node m).pad.bytes.wf = true →
        ∃ t, exec (.writeReq at') s = .next t ∧ otherNodes m s t ∧ answered tyWriteAck 0 [] s1 t ∧
          (protBanks (s.node m) off data.length = true → t.nodes = s.nodes) ∧
          (protBanks (s.node m) off data.length = false → t.node m = { s.node m with pad := (t.node m).pad } ∧ bytesAre m off data t ∧ bytesKept m off data.length s t)) ∧
      (∀ h p o, at' = .hem h → regionOf a = .bolt p o → (boltHem p).1 = h → boltLive s (a - 0x20000000000) = true → s.bolt.wf = true →
        ∃ t, exec (.writeReq at') s = .next t ∧ t = { s1 with flight := t.flight, nextPid := t.nextPid, bolt := t.bolt } ∧ answered tyWriteAck 0 [] s1 t ∧
          (∀ i, i < data.length → t.bolt.byte (a - 0x20000000000 + i) = data.getD i 0) ∧
          ∀ b, (b < a - 0x20000000000 ∨ a - 0x20000000000 + data.length ≤ b) → t.bolt.byte b = s.bolt.byte b) ∧
      (regionOf a = .none → ∃ t, exec (.writeReq at') s = .next t ∧ wire t ∧ answered tyWriteAck 0x1B [] s1 t)) ∧
    (∀ n, at' = .node n → (takes at' (fun k => rtType k.route == tyReadResp && !k.aborted) k s s1 → exec (.readResp at') s = .next s1) ∧
      (takes at' (fun k => rtType k.route == tyWriteAck && !k.aborted) k s s1 → exec (.writeAck at') s = .next s1))

/-- R265, R269, R270, R289, R517, R574: PTT entries cached, pages unmapped, and the release scrub's end. -/
def Obligations.TranslationResults : Prop :=
  ∀ (s : State) (p page : Nat), p < 16 →
    let e := Table.get 0 (s.part p).pl.ptt page
    (pttValid e = true → page ∉ (s.part p).pl.unmapping →
      (∀ n, isL n = true → ∃ t, exec (.pttEntryFetched (.node n) p page) s = .next t ∧ onlyNode n s t ∧ (p, page) ∈ (t.node n).ln.pttCache ∧
        (t.node n).ln.pttCache.length ≤ 1024 ∧ t.node n = { s.node n with ln := { (s.node n).ln with pttCache := (t.node n).ln.pttCache } }) ∧
      ∃ t, exec (.pttEntryFetched (.hem (hostHemAt s)) p page) s = .next t ∧ (p, page) ∈ t.io.pttCache ∧ t.io.pttCache.length ≤ 1024 ∧
        t = { s with io := { s.io with pttCache := t.io.pttCache } }) ∧
    (pttValid e = true → pageNamed s p page e = true → ∃ t, exec (.unmap p page) s = .next t ∧ t = { s with parts := t.parts } ∧
      (∀ off w, off < 0x200000 → xlate t p (page * 0x200000 + off) w = .unmapped) ∧ ∀ q, q ≠ p → t.part q = s.part q) ∧
    (pttValid e = true → pageNamed s p page e = false → ∃ t, exec (.unmap p page) s = .next t ∧
      (∀ off w, off < 0x200000 → xlate t p (page * 0x200000 + off) w = .unmapped) ∧ (p, page) ∉ t.io.pttCache ∧
      (∀ l ∈ (s.cfg p).lnodes, (p, page) ∉ (t.ln l).pttCache) ∧
      (pttBolt e = true → (∀ i, i < 0x200000 → t.bolt.byte (pttBpage e * 0x200000 + i) = 0) ∧ t.lining = s.lining) ∧
      (pttBolt e = false → (∀ g ∈ pageGranules s p e, ∀ i, i < 4096 → t.lining.byte (g + i) = 0) ∧ t.bolt = s.bolt)) ∧
    ((s.part p).state = .resetting → (s.part p).resetFor = some 4 → ∃ t, exec (.releaseScrubComplete p) s = .next t ∧ (t.part p).state = .empty ∧
      (t.part p).pl.image = none ∧ (t.part p).pl.region = [] ∧ (t.part p).resetFor = none ∧
      ((s.cfg p).prot = true → (t.part p).keys.installed = false ∧ (t.part p).keys.master = [] ∧ (t.part p).keys.holdsMemory = false) ∧
      ∀ l ∈ (s.cfg p).lnodes, (t.ln l).bobbins = [] ∧ (t.ln l).poison = [] ∧ (t.ln l).keyCur = none ∧ (t.ln l).keyPrev = none ∧
        ∀ i, i < 0x200000000 → t.lining.byte (linBase l + i) = 0)

/-- R217, R469 to R472: LOAD images received, confirmed, sent again and started. -/
def Obligations.LoadResults : Prop :=
  ∀ (n : NodeId) (image attempt chunks : Nat) (data : List Byte) (s : State), nodeExists n = true → keepsImage n image = true →
    let nd := s.node n
    (∀ c : U32, nd.load = [] → c ≠ 0xFFFFFFFF → c.toNat < imageChunks image chunks → ∃ t, exec (.loadChunk n image attempt c chunks data) s = .next t ∧ onlyNode n s t ∧
      t.node n = { nd with load := [⟨image, attempt, imageChunks image chunks, [c.toNat], Memory.write [] (256 * c.toNat) ((data ++ List.replicate 256 0).take 256),
                                     none, [], false⟩] }) ∧
    (∀ z, nd.load = [z] → z.image = image → z.attempt = attempt → z.ok = false →
      (∀ c : U32, z.digest = none → c ≠ 0xFFFFFFFF → c.toNat < z.chunks → ∃ t, exec (.loadChunk n image attempt c chunks data) s = .next t ∧ onlyNode n s t ∧
        t.node n = { nd with load := [{ z with got := setIns z.got c.toNat, asked := z.asked.filter (fun x => x != c.toNat)
                                               bytes := z.bytes.write (256 * c.toNat) ((data ++ List.replicate 256 0).take 256) }] }) ∧
      ((∀ c, c < z.chunks → c ∈ z.got) → z.digest = none →
        let good := sha384 (z.bytes.bytes 0 (256 * z.chunks)) = data.take 48
        (good → ∃ t, exec (.loadChunk n image attempt 0xFFFFFFFF chunks data) s = .next t ∧ (t.node n).load = [{ z with digest := some (data.take 48), ok := true, asked := [] }] ∧
          n ∈ t.brg.confirmed ∧ (t.knot (barrierKnot s)).count = satAdd (s.knot (barrierKnot s)).count 1) ∧
        (¬ good → z.attempt < 2 → ∃ t, exec (.loadChunk n image attempt 0xFFFFFFFF chunks data) s = .next t ∧ onlyNode n s t ∧
          (t.node n).load = [{ z with attempt := z.attempt + 1, got := [], bytes := [], digest := none, asked := List.range z.chunks }]) ∧
        (¬ good → 2 ≤ z.attempt → s.brg.phase ≠ 0x0D → ∃ t, exec (.loadChunk n image attempt 0xFFFFFFFF chunks data) s = .next t ∧ (t.node n).load = [] ∧
          t.brg.fails = s.brg.fails ++ [(n, 0x27)] ∧ (t.node n).fenced = nd.fenced) ∧
        (¬ good → 2 ≤ z.attempt → s.brg.phase = 0x0D → nd.fenced = false → ∃ t, exec (.loadChunk n image attempt 0xFFFFFFFF chunks data) s = .next t ∧ (t.node n).fenced = true ∧
          (t.entry n).code = 0x27)) ∧
      (∃ t, exec (.loadChunkTimeout n image) s = .next t ∧ onlyNode n s t ∧
        t.node n = { nd with load := [{ z with asked := (List.range z.chunks).filter (fun c => !z.got.contains c) ++ (if z.digest = none then [0xFFFFFFFF] else []) }] })) ∧
    ((∀ e ∈ s.nodes, ∀ z ∈ e.2.load, z.ok = true) → s.brg.confirmed ≠ [] → s.brg.confirmed.length ≤ (s.knot (barrierKnot s)).count.toNat →
      ∃ t, exec .loadBarrierRelease s = .next t ∧ t.brg = { s.brg with confirmed := [] } ∧ (∀ m ∈ s.brg.confirmed, (t.node m).load = []) ∧
        (t.knot (barrierKnot s)).count = 0 ∧ ∀ i, i ≠ barrierKnot s → t.knot i = s.knot i)

/-- R278, R296, R299, R301 to R303, R305, R679: READ, HINT and STEP_END served by an L node. -/
def Obligations.ServiceReadResults : Prop :=
  ∀ (n ep : Nat) (d : List Byte) (s : State), serving n ep d s → 32 ≤ d.length →
    let nd := s.node n
    let l := lIndex n
    let q := srvReq d
    let b := s.bobbin l q.entry
    let ours := q.entry < 4096 ∧ b.part = lnPart s l
    let pages := pagesOf b q.plane q.first q.count
    let reads := q.op = 1 ∧ ours ∧ streamRole nd.pat q.out = 2 ∧ q.plane < b.planes
    (∀ i, reads → (b.state = 1 ∨ b.state = 2) → q.first + q.count ≤ b.readEnd → pages = [(i, q.first, q.count)] → pageAway s l b i = false →
      (s.cfg (lnPart s l)).prot = false → nd.ln.sealedPages = [] → nd.ln.outbox = [] → streamPfd nd.pat ep = 0 →
      let k := q.count * b.tokenBytes
      let o := nd.outEp q.out
      let x := ple s l b i
      let at' := frameAddr l (pleFrame x) + q.first % 2 ^ b.tpp * b.tokenBytes
      let data := if b.listCap ≤ i ∨ pleValid x = false then List.replicate k 0 else s.lining.bytes at' k
      1 ≤ k → k ≤ min 8192 ((outMaxrec o.desc - 1) * 64) → (b.listCap ≤ i ∨ pleValid x = false ∨ linPoisoned s at' k = false) →
      o.broken = false → o.letout = false → creditFor o { kind := 0, data := data } = true →
      ∃ t, exec (.srvRead n ep none false) s = .next t ∧ served n ep s t ∧ t.lining = s.lining ∧
        (∃ new, t.flight = s.flight ++ new ∧ ∃ y ∈ new, y.at' = n ∧ rtType y.route = tyRecord ∧ y.data = data ∧
          y.pay = mkHdr o.seq.toNat q.out (nx n) (ny n) nd.pat.ctag { kind := 0, data := data }) ∧
        ((t.node n).outEp q.out).seq = o.seq + 1 ∧ ((t.node n).outEp q.out).msgs = satAdd o.msgs 1 ∧
        (t.bobbin l q.entry).lastStep = nd.pat.current.toNat ∧ (t.bobbin l q.entry).length = b.length) ∧
    (∀ i w df, reads → (b.state = 1 ∨ b.state = 2) → q.first + q.count ≤ b.readEnd → pages = [(i, q.first, q.count)] → pageAway s l b i = true → nd.ln.promos = [] →
      ∃ t, exec (.srvRead n ep w df) s = .next t ∧ otherNodes n s t ∧ ((t.node n).inEp ep).recs = (nd.inEp ep).recs ∧ (t.node n).outs = nd.outs ∧
        (t.node n).ln.promos = [⟨q.entry, i, 0⟩] ∧ (t.node n).ln.pfMiss = satAdd nd.ln.pfMiss 1 ∧ t.flight = s.flight) ∧
    (∀ w df, reads → b.state = 3 → nd.ln.outbox = [] → (nd.outEp q.out).broken = true → ∃ t, exec (.srvRead n ep w df) s = .next t ∧ served n ep s t ∧
      (t.node n).ln.outbox = pages.map (fun _ => (⟨ep, q.out, 3, 0xFFFF, false, []⟩ : OutMsg))) ∧
    (∀ w df, q.op = 1 → (¬ reads ∨ b.state = 0 ∨ b.state = 4 ∨ (b.state ≠ 3 ∧ b.readEnd < q.first + q.count)) → serviceFault n ep 0x1C (.srvRead n ep w df) s) ∧
    (q.op = 2 → ours → b.state ≠ 0 → nd.ln.promos = [] → ∃ t, exec (.hint n ep) s = .next t ∧ served n ep s t ∧ t.lining = s.lining ∧
      (t.node n).ln.promos = (((pages.map (·.1)).filter (fun i => pageAway s l b i)).foldl setIns []).map (fun i => ⟨q.entry, i, 1⟩) ∧
      (t.node n).ln.bobbins = nd.ln.bobbins ∧ (t.node n).outs = nd.outs) ∧
    (q.op = 2 → (¬ ours ∨ b.state = 0) → serviceFault n ep 0x1C (.hint n ep) s) ∧
    (q.op = 3 → ∃ t, exec (.stepEnd n ep) s = .next t ∧ served n ep s t ∧ t.lining = s.lining ∧
      (t.node n).ln = { nd.ln with stepEnds := if streamStep nd.pat ep then setIns nd.ln.stepEnds ep else nd.ln.stepEnds } ∧ (t.node n).outs = nd.outs)

/-- R278, R294, R298, R300, R305, R306, R346, R679: APPEND and REPLACE served by an L node of an unprotected partition. -/
def Obligations.ServiceWriteResults : Prop :=
  ∀ (n ep : Nat) (d : List Byte) (s : State), serving n ep d s → 16 ≤ d.length → s.lining.wf = true →
    let nd := s.node n
    let l := lIndex n
    let q := srvReq d
    let b := s.bobbin l q.entry
    let data := d.drop 16
    let toks := data.length / b.tokenBytes
    let i := b.pageOf q.first q.plane
    let x := ple s l b i
    let off := q.first % 2 ^ b.tpp * b.tokenBytes
    let fits := q.entry < 4096 ∧ b.part = lnPart s l ∧ q.plane < b.planes ∧ tokensFit b q.first data.length = true ∧ i < b.listCap
    let appends := fits ∧ (b.state = 1 ∨ b.state = 2) ∧ b.length ≤ q.first
    let replaces := fits ∧ b.state = 1 ∧ q.out = 0 ∧ q.first + toks ≤ b.length ∧ b.mirrored = false ∧ b.codec = 0
    let apart (f : Nat) : Prop := pleAddr l b i + 16 ≤ frameAddr l f ∨ frameAddr l f + 65536 ≤ pleAddr l b i
    let wrote (f : Nat) (fresh : Bool) (t : State) : Prop :=
      (∀ k, k < data.length → t.lining.byte (frameAddr l f + off + k) = data.getD k 0) ∧
      (∀ a, (a < frameAddr l f + off ∨ frameAddr l f + off + data.length ≤ a) → (a < pleAddr l b i ∨ pleAddr l b i + 16 ≤ a) →
        t.lining.byte a = if fresh && decide (frameAddr l f ≤ a) && decide (a < frameAddr l f + 65536) then 0 else s.lining.byte a) ∧
      pleValid (ple t l b i) = true ∧ pleLin (ple t l b i) = true ∧ pleDirty (ple t l b i) = true ∧ pleFrame (ple t l b i) = f
    let here := data ≠ [] ∧ (s.cfg (lnPart s l)).prot = false ∧ pleValid x = true ∧ pleLin x = true ∧ pleEpoch x = 0 ∧ apart (pleFrame x)
    let ends (t : State) : Prop := let c := t.bobbin l q.entry
      let now := nd.pat.current.toNat
      c.length = b.length ∧ c.lastStep = now ∧ c.state = b.state ∧
      c.end0 = (if q.out % 2 = 1 ∧ now % 2 = 0 then max b.end0 (q.first + toks) else b.end0) ∧
      c.end1 = (if q.out % 2 = 1 ∧ now % 2 = 1 then max b.end1 (q.first + toks) else b.end1)
    let rows : List (Instr × Nat) := [(.append n ep, 0x10), (.replace n ep, 0x11)]
    (q.op = 0x10 → appends → b.mirrored = false → here → ∃ t, exec (.append n ep) s = .next t ∧ served n ep s t ∧ wrote (pleFrame x) false t ∧ ends t ∧
      (t.node n).ln.appended = nd.ln.appended ++ [(q.entry, q.plane, q.first, toks)]) ∧
    (∀ f, q.op = 0x10 → appends → b.mirrored = false → data ≠ [] → (s.cfg (lnPart s l)).prot = false → pleValid x = false →
      (rangeFrom nd.ln.frameFirst nd.ln.frameCount).find? (fun f => !nd.ln.framesUsed.contains f) = some f → f < 131072 → apart f →
      ∃ t, exec (.append n ep) s = .next t ∧ served n ep s t ∧ wrote f true t ∧ ends t ∧ f ∈ (t.node n).ln.framesUsed ∧
        (t.bobbin l q.entry).linPages = b.linPages + 1) ∧
    (q.op = 0x11 → replaces → here → ∃ t, exec (.replace n ep) s = .next t ∧ served n ep s t ∧ wrote (pleFrame x) false t ∧ t.bobbin l q.entry = b ∧
      (t.node n).ln.appended = nd.ln.appended) ∧
    (∀ row ∈ rows, q.op = row.2 → (row.2 = 0x10 → appends) → (row.2 = 0x11 → replaces) → data ≠ [] → pageAway s l b i = true → nd.ln.promos = [] →
      ∃ t, exec row.1 s = .next t ∧ ((t.node n).inEp ep).recs = (nd.inEp ep).recs ∧ (t.node n).ln.promos = [⟨q.entry, i, 0⟩] ∧ t.lining = s.lining) ∧
    (∀ row ∈ rows, q.op = row.2 → q.entry < 4096 → b.state = 3 → b.part = lnPart s l → ∃ t, exec row.1 s = .next t ∧ served n ep s t ∧ t.lining = s.lining ∧
      (t.node n).ln = nd.ln) ∧
    (q.op = 0x10 → ¬ appends → ¬ (q.entry < 4096 ∧ b.state = 3 ∧ b.part = lnPart s l) → (b.state ≤ 4) → serviceFault n ep 0x1C (.append n ep) s) ∧
    (q.op = 0x11 → ¬ replaces → ¬ (q.entry < 4096 ∧ b.state = 3 ∧ b.part = lnPart s l) → serviceFault n ep 0x1C (.replace n ep) s)

/-- R272 to R275, R282, R303 to R307: the oldest promotion and demotion of an L node, and one burst of its patrol scrub. -/
def Obligations.PageMoveResults : Prop :=
  ∀ (n : NodeId) (s : State), isL n = true → s.lining.wf = true →
    let nd := s.node n
    let l := lIndex n
    let plain := nd.canComplete = true ∧ (s.cfg (lnPart s l)).prot = false
    (∀ q rest, plain → nd.ln.promos = q :: rest → let b := s.bobbin l q.entry
      let x := ple s l b q.page
      pageAway s l b q.page = true → pleCodec x = 0 → ∀ f, (rangeFrom nd.ln.frameFirst nd.ln.frameCount).find? (fun f => !nd.ln.framesUsed.contains f) = some f →
      f < 131072 → (pleAddr l b q.page + 16 ≤ frameAddr l f ∨ frameAddr l f + 65536 ≤ pleAddr l b q.page) →
      let copy := readBoltCopy ((s.updLn l (fun x => { x with promos := rest })).updLn l (fun x => { x with framesUsed := setIns x.framesUsed f })) l b x
      (∀ ok, ∃ t, exec (.promotionComplete n ok false) s = .next t ∧ (t.node n).ln.promos = rest ∧ f ∈ (t.node n).ln.framesUsed ∧
        pleLin (ple t l b q.page) = true ∧ pleDirty (ple t l b q.page) = false ∧ pleFrame (ple t l b q.page) = f ∧ (t.bobbin l q.entry).linPages = b.linPages + 1 ∧
        (t.node n).ln.pfPromoted = satAdd nd.ln.pfPromoted 1 ∧ (∀ k, k < copy.2.1.length → t.lining.byte (frameAddr l f + k) = copy.2.1.getD k 0) ∧
        (ok = false → f ∈ (t.node n).ln.poison ∧ (t.node n).pat.veto = true ∧ (t.node n).halted = nd.halted)) ∧
      (bit nd.fault 63 = false → ∀ ok, ∃ t, exec (.promotionComplete n ok true) s = .next t ∧ onlyNode n s t ∧ fld (t.node n).fault 7 0 = 0x23 ∧ (t.node n).halted = true)) ∧
    (∀ q touched rest, plain → nd.ln.demos = (q, touched) :: rest → let b := s.bobbin l q.entry
      let x := ple s l b q.page
      pleValid x = true → pleLin x = true → pleDirty x = true → pleBolt x = true → b.codec = 0 → nd.ln.sealedPages = [] →
      linPoisoned s (frameAddr l (pleFrame x)) 65536 = false → mapped s (lnPart s l) (0x20000000000 + 4096 * pleBslot x) 65536 true = true →
      ∃ t, exec (.demotionComplete n false) s = .next t ∧ (t.node n).ln.demos = rest ∧ (t.node n).ln.pfDemoted = satAdd nd.ln.pfDemoted 1 ∧
        let y := ple t l b q.page
        pleValid y = true ∧ pleBolt y = true ∧ pleDirty y = touched ∧ pleLin y = touched ∧ pleClen y = 16 ∧ pleBslot y = pleBslot x ∧
        (touched = false → pleFrame x ∉ (t.node n).ln.framesUsed ∧ (t.bobbin l q.entry).linPages = b.linPages - 1)) ∧
    (∀ c, ∃ t, exec (.patrolScrub n c none false) s = .next t ∧ onlyNode n s t ∧ t.node n = { nd with ln := { nd.ln with
      eccCorrected := satAdd nd.ln.eccCorrected c, scrubAt := (nd.ln.scrubAt + 1) % 8388608
      scrubPasses := if nd.ln.scrubAt + 1 = 8388608 then satAdd nd.ln.scrubPasses 1 else nd.ln.scrubPasses } }) ∧
    (∀ c w, ∃ t, exec (.patrolScrub n c w true) s = .next t ∧ onlyNode n s t ∧ (t.node n).ln.eccCorrected = nd.ln.eccCorrected ∧
      (t.node n).ln.poison = nd.ln.poison ∧ (t.node n).ln.scrubAt = (nd.ln.scrubAt + 1) % 8388608) ∧
    ∀ c w, linBase l + 1024 * nd.ln.scrubAt ≤ w → w < linBase l + 1024 * nd.ln.scrubAt + 1024 → nd.ln.scrubAt < 8388608 →
      ∃ t, exec (.patrolScrub n c (some w) false) s = .next t ∧ onlyNode n s t ∧ w / 65536 % 131072 ∈ (t.node n).ln.poison ∧
        (t.node n).ln.eccUncorrected = satAdd nd.ln.eccUncorrected 1 ∧ (t.node n).pat.veto = true ∧ (t.node n).halted = nd.halted ∧
        (bit nd.fault 63 = false → fld (t.node n).fault 7 0 = 0x1E)

/-- R399, R402, R407, R412 to R414, R418: what a warden does when it is told of a fault, and what the map then shows. -/
def Obligations.FaultNotificationResults : Prop :=
  ∀ (n : NodeId) (s : State), nodeExists n = true →
    let nd := s.node n
    let e := s.entry n
    let gen := (s.stw.f.gen + 1) % 2 ^ 32
    let noted (code : Nat) (changed : Bool) (t : State) : Prop := ∃ nt, t.stw.f.notes = s.stw.f.notes ++ [nt] ∧ nt.node = n ∧ nt.ev.code = code ∧
      nt.ev.gen = if changed then gen else 0
    let othersGood (t : State) : Prop := ∀ m, m ≠ n → t.entry m = s.entry m
    (∀ code step tag, nd.hist[nd.told]? = some (code, step, tag) →
      (isProgram code = true → ∃ t, exec (.faultNotification (.node n)) s = .next t ∧ otherNodes n s t ∧ t.node n = { nd with told := nd.told + 1 } ∧
        t.stw.f.map = s.stw.f.map ∧ t.stw.f.gen = s.stw.f.gen ∧ noted code false t) ∧
      (isProgram code = false → code ∉ [0x12, 0x13, 0x15, 0x16, 0x23] → ∃ t, exec (.faultNotification (.node n)) s = .next t ∧ otherNodes n s t ∧
        t.node n = { nd with told := nd.told + 1 } ∧ t.entry n = { e with code := code, faults := min 65535 (e.faults + 1), genLow := gen % 65536 } ∧ othersGood t ∧
        t.stw.f.gen = gen ∧ noted code true t) ∧
      (∀ j tag', j < nd.told → nd.hist[j]? = some (code, tag') → step < tag'.1 + 64 → nd.fenced = false →
        (code = 0x12 ∨ code = 0x23 ∨ ((code = 0x15 ∨ code = 0x16) ∧ tag'.2 = tag)) →
        ∃ t, exec (.faultNotification (.node n)) s = .next t ∧ (t.node n).fenced = true ∧ (t.node n).core.run = false ∧ (t.node n).mc.run = false ∧
          t.entry n = { e with state := 1, code := code, faults := min 65535 (e.faults + 1), genLow := gen % 65536 } ∧ othersGood t ∧ t.stw.f.gen = gen ∧
          t.stw.f.dirty = true ∧ noted code true t)) ∧
    (s.stw.f.parityAt = [] → ∃ t, exec (.faultNotification (.routerParity n)) s = .next t ∧ t.nodes = s.nodes ∧
      t.entry n = { e with code := 0x22, faults := min 65535 (e.faults + 1), genLow := gen % 65536 } ∧ othersGood t ∧ noted 0x22 true t) ∧
    (∀ at', (n, at') ∈ s.stw.f.parityAt → s.clock < at' + 3600 * msCycles 1000 → (s.router n).dead = false →
      ∃ t, exec (.faultNotification (.routerParity n)) s = .next t ∧ (t.router n).dead = true ∧ (∀ p, p < 5 → ((t.router n).port p).state = 0) ∧
        (t.node n).fenced = true ∧ (t.entry n).state = 1 ∧ (t.entry n).router = 1) ∧
    (∀ port, port < 4 → portLeads n port = true → ((s.router n).port port).state = 0 → downPorts s n < 2 →
      ∃ t, exec (.faultNotification (.link n port)) s = .next t ∧ t.nodes = s.nodes ∧ t.routers = s.routers ∧ Table.get 0 (t.entry n).links port = 1 ∧ othersGood t ∧
        t.stw.f.gen = gen ∧ noted 0x00 true t) ∧
    (∀ port, port < 4 → portLeads n port = true → ((s.router n).port port).state = 0 → 2 ≤ downPorts s n → (s.router n).dead = false →
      ∃ t, exec (.faultNotification (.link n port)) s = .next t ∧ (t.router n).dead = true ∧ (t.node n).fenced = true ∧ (t.entry n).router = 1)

/-- R108, R399, R403, R414, R428, R433, R434, R436: fault events at the steward, the map in flash, moves off hot panels, and the standby. -/
def Obligations.StewardResults : Prop :=
  ∀ (s : State),
    (∀ nt rest, s.stw.f.notes = nt :: rest → stewardActs s = true → nt.fenced = false → nt.ev.kind ≠ 5 →
      ((∀ p, p < 16 → (s.part p).state ≠ .running) → ∃ t, exec .faultEventReceipt s = .next t ∧ t.stw.f.notes = rest ∧ t.stw.f.log.getLast? = some nt.ev ∧
        t.stw.f.seq = s.stw.f.seq + 1 ∧ t.parts = s.parts ∧ t.nodes = s.nodes ∧ t.stw.journal = s.stw.journal + 1) ∧
      (∀ p, p < 16 → (s.part p).state = .running → (∀ q, q < 16 → q ≠ p → (s.part q).state ≠ .running) → nt.ev.kind = 1 → isProgram nt.ev.code = true → nt.ev.part = p →
        ∃ t, exec .faultEventReceipt s = .next t ∧ t.stw.f.notes = rest ∧ (t.part p).state = .faulted ∧ (t.part p).reason = 0x0A ∧
          ∀ m ∈ (s.part p).pl.region, (s.node m).fenced = false → (t.node m).pat.phase = .stopped)) ∧
    (s.stw.f.dirty = true → ∃ t st, exec (.faultMapFlashWrite true) s = .next t ∧ t.stw.f = { s.stw.f with dirty := false, stored := s.stw.f.gen } ∧
      t.brg = { s.brg with stored := some st } ∧ st.map = s.stw.f.map ∧ t = { s with stw := t.stw, brg := t.brg }) ∧
    (∀ p img i, p < 16 → (s.part p).state = .running → (s.cfg p).pressure = true → (s.part p).pl.image = some img →
      let hot := (List.range 42).filter (fun k => match (s.panel k).throttledAt with | some t => decide (t + msCycles (s.cfg p).pressureHold ≤ s.clock) | none => false)
      let used := hot.filter (fun k => (s.region p).any (fun n => panelOf n == k))
      let tag := (s.node (s.part p).pl.commitHome).pat.ctag
      let fits (j : Nat) : Prop := j ≠ (s.part p).pl.placement ∧ usable s p img tag j = true ∧
        ∀ pl, img.place j = some pl → ∀ m ∈ regionOfPlacement img pl tag, panelOf m ∉ used
      used ≠ [] → i < img.placements.length → fits i → (∀ j, j < i → ¬ fits j) →
        ∃ t, exec (.pressureMove p) s = .next t ∧ (t.part p).pl.placement = i ∧ t.stw.f.seq = s.stw.f.seq + 1) ∧
    (∃ t, exec .stewardHeartbeat s = .next t ∧ t = { s with stw := { s.stw with missed := t.stw.missed } } ∧
      t.stw.missed = if s.stw.stewardLost = true ∨ (s.node stewardNode).fenced = true then s.stw.missed + 1 else 0) ∧
    (s.stw.standbyLost = false → s.stw.standbyActs = false → ∃ t, exec .journalEntry s = .next t ∧
      t = { s with stw := { s.stw with journalGot := s.stw.journal } }) ∧
    (3 ≤ s.stw.missed → s.stw.standbyLost = false → s.stw.standbyActs = false → ∃ t, exec .standbyTakeover s = .next t ∧ t.stewardAt = standbyNode ∧
      t.stw.stewardLost = true ∧ t.stw.missed = 0 ∧ t.stw.d.active = s.stw.d.active ∧ t.stw.d.shadow = s.stw.d.active ∧ t.stw.d.owner = none ∧
      t.parts = s.parts ∧ t.nodes = s.nodes ∧ t.stw.f.map = s.stw.f.map)

/-- R439 to R451, R459; R250 to R252, R404, R580, R589: hang windows, the declaration of a hang and what follows it, and a suspect replay's attempts;
a stopped node scanned out, and scanned in where its slots hold what they held. -/
def Obligations.HangResults : Prop :=
  (∀ (s : State) (p : Nat), p < 16 →
    let x := s.part p
    (∀ panel, panel < 42 → windowRuns s p = true → panel ∈ regionPanels s p → ∃ t, exec (.hangWindowExpiry panel p) s = .next t ∧
      t = { s with parts := t.parts } ∧ (∀ q, q ≠ p → t.part q = s.part q) ∧ panel ∈ (t.part p).tr.quiet ∧
      Table.find? (t.part p).tr.quietAt panel = some (panelEvents s p panel) ∧
      (∀ n ∈ s.region p, panelOf n = panel → Table.find? (t.part p).tr.quietPc n = some (progIndex n (s.node n))) ∧
      t.part p = { x with tr := { x.tr with quiet := (t.part p).tr.quiet, quietAt := (t.part p).tr.quietAt, quietPc := (t.part p).tr.quietPc } }) ∧
    (let still := x.tr.quiet.filter (fun k => Table.find? x.tr.quietAt k == some (panelEvents s p k))
     let s1 := s.updPart p (fun x => { x with tr := { x.tr with quiet := still } })
     let held := holdRegion s1 p
     let e := examine held p
     (∀ k ∈ regionPanels s p, k ∉ still → exec (.quietReceipt p) s = .next s1) ∧
     (windowRuns s p = true → suspectRuns x = false → regionPanels s p ≠ [] → (∀ k ∈ regionPanels s p, k ∈ still) → s.stw.f.notes = [] →
       ∃ t, exec (.quietReceipt p) s = .next t ∧ t.stw.f.hangs = s.stw.f.hangs + 1 ∧
         (e.cls = 1 → (t.part p).state = .running ∧ (t.part p).tr.idleDeclared = satAdd x.tr.idleDeclared 1 ∧ (∀ n ∈ s.region p, (t.node n).pat.held = false) ∧
           ∃ r, t.stw.f.hangLog.getLast? = some r ∧ (r.drop 4).take 3 = [BitVec.ofNat 8 p, 1, 1]) ∧
         (3 ≤ e.cls ∧ e.cls ≤ 7 → nondetImage s p = false → (t.part p).state = .faulted ∧ (t.part p).reason = 0x07 ∧
           ∀ n ∈ s.region p, (s.node n).fenced = false → (t.node n).pat.phase = .stopped) ∧
         (∀ n, 8 ≤ e.cls → e.suspect = some n → (t.part p).tr.hang = some ⟨s.stw.f.hangs + 1, e.cls, e.named,
           some { node := n, slots := suspectSlots (held.node n), slotAt := (s.node n).pat.active, pcAt := progIndex n (s.node n), reproduced := [], elsewhere := false }⟩))) ∧
    (∀ h q k k2 rest, x.tr.hang = some h → h.suspect = some q → q.slots = k :: k2 :: rest → x.state = .running → (s.node q.node).pat.active = k →
      let same := progIndex q.node (s.node q.node) = q.pcAt
      ∃ t, exec (.contextWatchFire p) s = .next t ∧
        (same → (t.part p).tr.hang = some { h with suspect := some { q with slots := k2 :: rest, reproduced := q.reproduced ++ [k] } }) ∧
        (¬ same → (t.part p).tr.hang = some { h with suspect := some { q with slots := k2 :: rest, elsewhere := true } }))) ∧
  (∀ (n : NodeId) (s : State), isNode [.m, .v, .f, .l] n = true → scanStopped (s.node n) = true → scanAllowed s n = true →
    let nd := s.node n
    (nd.mc.flights = [] → nd.mc.drains = [] → ∃ t r, exec (.stateScanOut n) s = .next t ∧ Table.find? t.stw.scans n = some r ∧ r.node = nd ∧
      r.digests = slotDigests nd ∧ (kindOf n ≠ .m → r.items = scanItems n nd []) ∧ t.node n = { nd with pat := { nd.pat with phase := .scanning } } ∧
      otherNodes n s t ∧ (∀ m, m ≠ n → Table.find? t.stw.scans m = Table.find? s.stw.scans m)) ∧
    (∀ r, Table.find? s.stw.scans n = some r →
      (slotDigests nd = r.digests → ∃ t, exec (.scanIn n) s = .next t ∧ onlyNode n s t ∧ (t.node n).ins = r.node.ins ∧ (t.node n).outs = r.node.outs ∧
        (t.node n).core.tiles = r.node.core.tiles ∧ (t.node n).core.scalars = r.node.core.scalars ∧ (t.node n).core.preds = r.node.core.preds ∧
        (t.node n).core.pc = r.node.core.pc ∧ (t.node n).mc.groups = r.node.mc.groups ∧ (t.node n).pat.phase = r.node.pat.phase ∧
        (t.node n).pat.current = r.node.pat.current ∧ (t.node n).pat.slots = nd.pat.slots ∧ (t.node n).mc.rowRep = nd.mc.rowRep) ∧
      (slotDigests nd ≠ r.digests → exec (.scanIn n) s = .next s)))

/-- R452 to R457, R461, R517: deadlines of the reset ladder, the end of a partition reset's wait, and the hems' watchdogs. -/
def Obligations.ResetResults : Prop :=
  ∀ (s : State),
    (∀ n, nodeExists n = true → (s.node n).resetting = true → (s.node n).fenced = false → ∃ t, exec (.nodeResetDeadline n) s = .next t ∧
      (t.node n).fenced = true ∧ (t.entry n).state = 1 ∧ (t.entry n).code = 0x25 ∧
      ((∀ p, p < 16 → n ∉ s.region p) → t.parts = s.parts ∧ otherNodes n s t) ∧
      ∀ p, p < 16 → n ∈ s.region p → (∀ q, q < 16 → q ≠ p → n ∉ s.region q) → (s.part p).state = .running → (t.part p).state = .draining ∧ (t.part p).resetFor = some 0) ∧
    (∀ n p j, isNode [.m, .v, .f, .l] n = true → p < 16 → (s.part p).state = .running → (s.part p).tr.namedSlot = some (n, j, (s.part p).next) →
      (∀ q, q < 16 → q ≠ p → (s.part q).state ≠ .running) → ((s.part p).tr.replayStep = (s.part p).next → (s.part p).tr.replayCount < 8) →
      ∃ t, exec (.contextResetDeadline n) s = .next t ∧ (t.part p).tr.replayStep = (s.part p).next ∧ (t.part p).tr.replayNode = none ∧
        (t.part p).tr.replayCount = (if (s.part p).tr.replayStep = (s.part p).next then (s.part p).tr.replayCount else 0) + 1) ∧
    (∀ p why, p < 16 → (s.part p).state = .draining → (s.part p).resetFor = some why → why ≠ 2 →
      ∃ t, exec (.partitionResetWaitEnd p) s = .next t ∧ (∀ k ∈ t.flight, rtOwner k.route ≠ p) ∧
        (why = 0 → (s.part p).pl.image = none → (t.part p).state = .paused ∧ (t.part p).reason = 0x01 ∧ (t.part p).resetFor = none) ∧
        (why = 1 → (t.part p).state = .resetting ∧ (t.part p).resetFor = some 4 ∧ (∀ n ∈ s.region p, (t.node n).part = none)) ∧
        (why = 3 → (t.part p).state = .faulted ∧ (t.part p).reason = 0x0E ∧ (t.part p).resetFor = none) ∧
        (why = 1 ∨ why = 3 → (∀ n ∈ s.region p, (s.node n).fenced = false → (t.node n).resetting = true ∧ (t.node n).fault = 0 ∧ (t.node n).ins = [] ∧ (t.node n).outs = []) ∧
          (∀ l ∈ (s.cfg p).lnodes, (∀ i k, (i, k) ∈ (t.ln l).knots → Knot.part k = p → k.count = 0) ∧
            ∀ i b, (i, b) ∈ (t.ln l).bobbins → Bobbin.part b = p → b.end0 = 0 ∧ b.end1 = 0))) ∧
    (∀ p q, p < 16 → q < 16 → q ≠ p → (s.part p).state = .draining → (s.part p).resetFor = some 2 → (s.part q).state = .draining →
      ∃ t, exec (.partitionResetWaitEnd p) s = .next t ∧ (t.part p).state = .resetting ∧ (t.part p).resetFor = some 2 ∧ t.stw.moduleReset = s.stw.moduleReset) ∧
    (∀ p, p < 16 → (s.part p).state = .draining → (s.part p).resetFor ≠ some 4 → s.stw.moduleReset = none → ∃ t, exec (.partitionResetDeadline p) s = .next t ∧
      t.stw.moduleReset = some s.stw.mstate ∧ (t.part p).state = .draining ∧ (t.part p).resetFor = some 2 ∧
      (∃ st, t.brg.stored = some st ∧ st.map = s.stw.f.map) ∧ ∀ q, q < 16 → (s.part q).state = .running → (t.part q).state = .draining ∧ (t.part q).resetFor = some 2) ∧
    (s.stw.moduleReset ≠ none → ∃ t, exec .moduleResetDeadline s = .next t ∧ t.pow = { s.pow with trayCycle := true } ∧
      t = { s with pow := t.pow, hemA := t.hemA, hemB := t.hemB } ∧
      (if s.stw.standbyActs = true ∨ s.stw.stewardLost = true then t.hemB = { s.hemB with trayCycle := true } ∧ t.hemA = s.hemA
       else t.hemA = { s.hemA with trayCycle := true } ∧ t.hemB = s.hemB)) ∧
    (s.stw.stewardLost = false ∨ s.stw.standbyLost = false → exec .watchdogStroke s =
      .next { s with hemA := { s.hemA with stroked := s.clock }, hemB := { s.hemB with stroked := s.clock } }) ∧
    (s.hemA.dead = false → exec (.hemWatchdogExpiry 3) s = .next { s with hemA := { s.hemA with trayCycle := true }, pow := { s.pow with trayCycle := true } }) ∧
    (s.hemB.dead = false → exec (.hemWatchdogExpiry 10) s = .next { s with hemB := { s.hemB with trayCycle := true }, pow := { s.pow with trayCycle := true } })

/-- R496 to R505, R507, R510 to R512, R514, R519, R525 to R528; R506, R507, R509, R516, R527: the mailbox, reads, transfers, time limits and address
resolution; a WRITE and an EXECUTE of an object by its number do what the object's request does. -/
def Obligations.DictionaryResults : Prop :=
  (∀ (s : State),
    let d := s.stw.d
    (∀ f, f ≤ 16 → fnLive s f = true →
      (bit (s.fn f).mbxStatus 62 = true → exec (.mbxDoorbell f) s = .next (s.updFn f (fun x => { x with mbxStatus := setFld x.mbxStatus 61 61 1 }))) ∧
      (bit (s.fn f).mbxStatus 62 = false → d.queue.length < 60 → ∃ t, exec (.mbxDoorbell f) s = .next t ∧ t.stw.d = { d with queue := d.queue ++ [f] } ∧
        bit (t.fn f).mbxStatus 62 = true ∧ bit (t.fn f).mbxStatus 63 = false ∧ (t.fn f).mbxReq = (s.fn f).mbxReq) ∧
      (bit (s.fn f).mbxStatus 62 = false → 64 ≤ d.queue.length → ∃ t, exec (.mbxDoorbell f) s = .next t ∧ t.stw.d.busy = satAdd d.busy 1 ∧
        (t.fn f).mbxResp.drop 16 = leBytes 4 0x04000002 ∧ bit (t.fn f).mbxStatus 63 = true)) ∧
    (∀ (r : Req) o, mayServe 1 r s → objAt r.index.toNat r.sub.toNat = some o →
      (permitted r.who o r.sub.toNat false = false → ∃ t, exec (.dictRead r) s = .next t ∧ answersOnly s t ∧
        answered r.who r.seq 1 3 r.index.toNat r.sub.toNat (leBytes 4 0x01000004) t) ∧
      (permitted r.who o r.sub.toNat false = true → o.access = .wo → ∃ t, exec (.dictRead r) s = .next t ∧ answersOnly s t ∧
        answered r.who r.seq 1 3 r.index.toNat r.sub.toNat (leBytes 4 0x01000003) t) ∧
      (permitted r.who o r.sub.toNat false = true → o.access ≠ .wo → bit r.flags 3 = false →
        let v := readObject s (bit r.flags 4) o r.sub.toNat
        (o.domain = false → ∃ t, exec (.dictRead r) s = .next t ∧ answersOnly v.1 t ∧ t.stw.journal = s.stw.journal ∧
          answered r.who r.seq 1 1 r.index.toNat r.sub.toNat v.2 t) ∧
        (o.domain = true → v.2.length ≤ 1016 → ∃ t, exec (.dictRead r) s = .next t ∧ answersOnly v.1 t ∧
          answered r.who r.seq 1 1 r.index.toNat r.sub.toNat (xferDesc v.2.length 0 ++ v.2) t) ∧
        (o.domain = true → 1016 < v.2.length → (d.transfers.filter (fun x => x.who == r.who)).length < 8 → ∃ t x, exec (.dictRead r) s = .next t ∧
          answered r.who r.seq 1 5 r.index.toNat r.sub.toNat (xferDesc v.2.length x ++ v.2.take 1016) t ∧
          t.stw.d.transfers = d.transfers ++ [⟨x, r.who, 1, r.index.toNat, r.sub.toNat, v.2.length, v.2, 1016⟩] ∧ t.nodes = s.nodes ∧ t.parts = s.parts))) ∧
    (∀ (r : Req), mayServe 1 r s → objAt r.index.toNat r.sub.toNat = none → ∃ t, exec (.dictRead r) s = .next t ∧ answersOnly s t ∧
      answered r.who r.seq 1 3 r.index.toNat r.sub.toNat (leBytes 4 0x01000001) t) ∧
    (∀ (r : Req) off x tr, mayServe 6 r s → bit r.flags 3 = false → tr ∈ d.transfers → (∀ y ∈ d.transfers, y.xfer = tr.xfer → y = tr) → tr.who = r.who → tr.xfer = x → tr.index = r.index.toNat →
      tr.sub = r.sub.toNat → off < 2 ^ 32 → x < 65536 →
      (tr.op = 1 → r.payload = leBytes 4 off ++ leBytes 2 x ++ [0, 0] → off ≤ tr.total → tr.data.length = tr.total →
        ∃ t, exec (.segment r) s = .next t ∧ t.nodes = s.nodes ∧ t.parts = s.parts ∧
          answered r.who r.seq 6 (if off + min 1016 (tr.total - off) < tr.total then 5 else 1) r.index.toNat r.sub.toNat (leBytes 4 off ++ leBytes 2 x ++ [0, 0] ++ (tr.data.drop off).take 1016) t ∧
          t.stw.d.transfers = if tr.total ≤ off + 1016 then d.transfers.filter (fun y => y.xfer != x) else d.transfers) ∧
      (∀ rest, tr.op ≠ 1 → r.payload = leBytes 4 off ++ leBytes 2 x ++ [1, 0] ++ rest →
        (off = tr.data.length → tr.data.length + rest.length < tr.total → ∃ t, exec (.segment r) s = .next t ∧ answered r.who r.seq 6 1 r.index.toNat r.sub.toNat [] t ∧
          { tr with data := tr.data ++ rest, moved := tr.data.length + rest.length } ∈ t.stw.d.transfers ∧ t.stw.d.shadow = d.shadow) ∧
        (off ≠ tr.data.length → ∃ t, exec (.segment r) s = .next t ∧ answered r.who r.seq 6 3 r.index.toNat r.sub.toNat (leBytes 4 0x02000005) t ∧
          t.stw.d.transfers = d.transfers.filter (fun y => y.xfer != x) ∧ t.stw.d.shadow = d.shadow))) ∧
    (∀ x, exec (.domainTransferTimeout x) s = .next { s with stw := { s.stw with d := { d with transfers := d.transfers.filter (fun y => y.xfer != x) } } }) ∧
    (d.owner ≠ none → exec .stageTimeout s =
      .next { s with stw := { s.stw with d := { d with owner := none, ownerCode := 0, shadow := d.active, staged := [], stageDiscards := d.stageDiscards + 1 } } }) ∧
    (∀ f rest, d.queue = f :: rest → ∃ t, exec .dictQueueTimeout s = .next t ∧ f ∉ t.stw.d.queue ∧ t.stw.d.busy = satAdd d.busy 1 ∧
      (t.fn f).mbxResp.drop 16 = leBytes 4 0x04000002 ∧ t.nodes = s.nodes ∧ t.parts = s.parts ∧ t.stw.d.active = d.active ∧ t.stw.d.shadow = d.shadow) ∧
    (∀ hem, hem = 3 ∨ hem = 10 → serves s (.segment hem 0 0) = true → ∀ target : U128,
      (target = linkLocal (if hem = 3 then 1 else 2) → exec (.neighbourSolicitation hem target) s = .next { s with stw := { s.stw with d := { d with adverts := d.adverts ++ [(hem, target)] } } }) ∧
      (target ≠ linkLocal (if hem = 3 then 1 else 2) → exec (.neighbourSolicitation hem target) s = .next s))) ∧
  (∀ (r : Req) (ex : Bool) (o : Obj) (s : State), mayServe (if ex then 5 else 2) r s → objAt r.index.toNat r.sub.toNat = some o →
    let c := if ex then Instr.execute r else Instr.dictWrite r
    let h : ReqHdr := ⟨r.who, r.seq, ex⟩
    let sub := r.sub.toNat
    (writeRefused s r.who o sub ≠ 0 → ∃ t, exec c s = .next t ∧ turnedAway h o.index sub (writeRefused s r.who o sub) s t) ∧
    (writeRefused s r.who o sub = 0 → o.domain = false → bit r.flags 3 = false →
      (∀ n, o.size = some n → n ≠ r.payload.length → ∃ t, exec c s = .next t ∧ turnedAway h o.index sub 0x02000002 s t) ∧
      (o.index = 0x1020 → r.payload.length = 4 → let v := leNat r.payload
        (1000 ≤ v → v ≤ 3600000 → ∃ t, exec c s = .next t ∧ answersOnly { s with stw := { s.stw with d := { s.stw.d with stageTimeout := v } } } t ∧ acted h 0x1020 sub [] t) ∧
        (v < 1000 ∨ 3600000 < v → ∃ t, exec c s = .next t ∧ turnedAway h 0x1020 sub 0x02000001 s t)) ∧
      (o.index = 0x3014 → r.payload.length = 8 → (s.cfg (sub - 1)).prot = false → ∃ t, exec c s = .next t ∧ acted h 0x3014 sub [] t ∧
        answersOnly (s.updPart (sub - 1) (fun x => { x with tenantSeed := BitVec.ofNat 64 (leNat r.payload) })) t) ∧
      (o.index = 0x3004 → r.payload = [2] → (s.part (sub - 1)).state = .running → ∃ t, exec c s = .next t ∧ underWay h 0x3004 sub (sub - 1) (statesBut [3]) t ∧
        answersOnly (s.updPart (sub - 1) (fun x => { x with pauseReq := some (x.pauseReq.getD 0x0C) })) t) ∧
      (o.index = 0x5040 → r.payload.length = 4 → nodeExists (leNat r.payload) = true → (s.node (leNat r.payload)).fenced = false → ∃ t, exec c s = .next t ∧ acted h 0x5040 sub [] t ∧
        (t.node (leNat r.payload)).fenced = true)))

/-- R238, R239, R243 to R245, R325, R506, R507, R519 to R522; R243, R245, R325 to R327: the shadow set staged, discarded, tried, committed and made
active; the last node of a region has switched. -/
def Obligations.StagingResults : Prop :=
  (∀ (r : Req) (s : State),
    let d := s.stw.d
    let free := d.owner = none ∨ d.owner = some r.who
    let seams := ∃ p, p < 16 ∧ (s.part p).seam ≠ none
    let said (op flags : Nat) (data : List Byte) (t : State) := answered r.who r.seq op flags r.index.toNat r.sub.toNat data t
    (∀ o, mayServe 3 r s → objAt r.index.toNat r.sub.toNat = some o →
      (d.owner ≠ none → d.owner ≠ some r.who → permitted r.who o r.sub.toNat true = true → o.access = .rws →
        ∃ t, exec (.writeStaged r) s = .next t ∧ answersOnly s t ∧ said 3 3 (leBytes 4 0x03000004) t) ∧
      (stageRefused s r.who o r.sub.toNat = 0 → o.domain = false → ∀ n, o.size = some n →
        (r.payload.length ≠ n → ∃ t, exec (.writeStaged r) s = .next t ∧ answersOnly s t ∧ said 3 3 (leBytes 4 0x02000002) t) ∧
        (r.payload.length = n → stagedInRange o.index r.payload = false → ∃ t, exec (.writeStaged r) s = .next t ∧ answersOnly s t ∧ said 3 3 (leBytes 4 0x02000001) t) ∧
        (∀ c, r.payload.length = n → stagedInRange o.index r.payload = true → stageSet d.shadow o.index r.sub.toNat r.payload = some c → ∃ t, exec (.writeStaged r) s = .next t ∧
          said 3 1 [] t ∧ t.stw.d.shadow = c ∧ t.stw.d.active = d.active ∧ (o.index, r.sub.toNat) ∈ t.stw.d.staged ∧ t.stw.d.gen = d.gen ∧
          t.stw.d.owner = (if d.owner = none ∧ d.shadow = d.active then some r.who else d.owner) ∧ t.nodes = s.nodes ∧ t.parts = s.parts))) ∧
    (mayServe 4 r s → r.op = 4 → bit r.flags 5 = true → free → ∃ t, exec (.commitDiscard r) s = .next t ∧ said 4 1 [] t ∧
      answersOnly { s with stw := { s.stw with d := { d with shadow := d.active, staged := [], owner := none, ownerCode := 0 } } } t) ∧
    (mayServe 4 r s → r.op = 4 → fld r.flags 6 5 = 2 → free → ¬ seams → d.shadow ≠ d.active →
      (validate s = none → ∃ t, exec (.commitDryrun r) s = .next t ∧ said 4 1 (leBytes 4 ((d.gen + 1) % 2 ^ 32)) t ∧ answersOnly s.takeFree.2 t) ∧
      (∀ i k code, validate s = some (i, k, code) → ∃ t, exec (.commitDryrun r) s = .next t ∧ said 4 3 (leBytes 4 code) t ∧
        t.stw.d.commitStatus = i * 2 ^ 48 + k * 2 ^ 40 + code ∧ t.stw.d.active = d.active ∧ t.stw.d.shadow = d.shadow ∧ t.stw.d.gen = d.gen)) ∧
    (mayServe 4 r s → r.op = 4 → fld r.flags 6 5 = 0 →
      (¬ free → ∃ t, exec (.commit r) s = .next t ∧ answersOnly s t ∧ said 4 3 (leBytes 4 0x03000004) t) ∧
      (free → seams → ∃ t, exec (.commit r) s = .next t ∧ answersOnly s t ∧ said 4 3 (leBytes 4 0x03000001) t) ∧
      (free → ¬ seams → d.shadow = d.active → ∃ t, exec (.commit r) s = .next t ∧ said 4 1 (leBytes 4 d.gen) t ∧
        answersOnly { s with stw := { s.stw with d := { d with staged := [], owner := none, ownerCode := 0 } } } t) ∧
      (∀ i k code, free → ¬ seams → d.shadow ≠ d.active → validate s = some (i, k, code) → ∃ t, exec (.commit r) s = .next t ∧ said 4 3 (leBytes 4 code) t ∧
        t.stw.d.commitStatus = i * 2 ^ 48 + k * 2 ^ 40 + code ∧ t.stw.d.active = d.active ∧ t.stw.d.shadow = d.shadow ∧ t.stw.d.gen = d.gen ∧ t.nodes = s.nodes ∧ t.parts = s.parts) ∧
      (free → ¬ seams → d.shadow ≠ d.active → validate s = none → (∀ p, p < 16 → seamPart s p = false) → ∃ t, exec (.commit r) s = .next t ∧
        said 4 1 (leBytes 4 ((d.gen + 1) % 2 ^ 32)) t ∧ t.stw.d.active = d.shadow ∧ t.stw.d.shadow = d.shadow ∧ t.stw.d.gen = (d.gen + 1) % 2 ^ 32 ∧ t.stw.d.owner = none ∧
        t.stw.d.staged = [] ∧ t.brg.config = some d.shadow) ∧
      (∀ p img pl, free → ¬ seams → d.shadow ≠ d.active → validate s = none → p < 16 → seamPart s p = true → (s.part p).pl.image = some img →
        img.place (s.part p).pl.placement = some pl → ∃ t, exec (.commit r) s = .next t ∧ said 4 1 (leBytes 4 ((d.gen + 1) % 2 ^ 32)) t ∧ t.stw.d.gen = d.gen ∧
          t.stw.d.committing = some d.shadow ∧ (t.part p).pl.nextImage = some img ∧
          (t.part p).seam = some ⟨d.gen + 1, (s.part p).next, [], (s.part p).next, false⟩))) ∧
  (∀ (s : State) (p : Nat) (q : SeamRun), p < 16 → (s.part p).seam = some q → (∀ n ∈ s.region p, n ∈ q.switched) →
    let x := s.part p
    ∃ t, exec (.configActivate p) s = .next t ∧ (t.part p).seam = none ∧ (t.part p).pl.image = (match x.pl.nextImage with | some i => some i | none => x.pl.image) ∧
      (t.part p).pl.nextImage = none ∧ (t.part p).rep.history = x.rep.history ++ [if q.forced = true then (x.next, q.gen, 2) else (q.last, q.gen, 1)] ∧
      (s.stw.d.committing = none → t.stw = s.stw ∧ t.nodes = s.nodes ∧ t.flight = s.flight) ∧
      (∀ c, s.stw.d.committing = some c →
        ((∃ o, o < 16 ∧ o ≠ p ∧ (s.part o).seam ≠ none) → t.stw.d.active = s.stw.d.active.updPart p (fun _ => c.part p) ∧ t.stw.d.gen = s.stw.d.gen ∧
          t.stw.d.committing = some c) ∧
        ((∀ o, o < 16 → o ≠ p → (s.part o).seam = none) → t.stw.d.active = c ∧ t.stw.d.shadow = c ∧ t.stw.d.gen = (s.stw.d.gen + 1) % 2 ^ 32 ∧
          t.stw.d.committing = none)))

/-- R490, R514, R515, R523: states of the module asked for by request. -/
def Obligations.ModuleRequestResults : Prop :=
  ∀ (h : ReqHdr) (s : State),
    let m := s.stw.mstate
    let allEmpty := ∀ p, p < 16 → (s.part p).state = .empty
    (mayAct h 0x2001 0 s →
      (m = .service ∨ m = .safe → ∃ t m2, exec (.moduleRequestReady h) s = .next t ∧ acted h 0x2001 0 [] t ∧
        answersOnly { s with brg := { s.brg with short := gradeShort s }, stw := { s.stw with mstate := m2 } } t ∧
        (gradeShort s = 0 → allEmpty → m2 = .ready) ∧ (gradeShort s = 0 → ¬ allEmpty → m2 = .running) ∧
        (gradeShort s ≠ 0 → m2 = if s.brg.accept then .degraded else m)) ∧
      (m ≠ .service → m ≠ .safe → ∃ t, exec (.moduleRequestReady h) s = .next t ∧ turnedAway h 0x2001 0 0x03000001 s t) ∧
      (m ∈ [ModuleState.ready, .running, .degraded, .service] → allEmpty → ∃ t, exec (.moduleRequestSafe h) s = .next t ∧ acted h 0x2001 0 [] t ∧ t.stw.mstate = .safe ∧
        t.stw.safeWanted = false ∧ (∀ p, p < 16 → (t.cfg p).clusters = 0 ∧ (t.stw.d.shadow.part p).clusters = 0) ∧ t.nodes = s.nodes ∧ t.parts = s.parts) ∧
      (m ∈ [ModuleState.ready, .running, .degraded, .service] → ¬ allEmpty → ∃ t, exec (.moduleRequestSafe h) s = .next t ∧ underWay h 0x2001 0 18 [] t ∧ t.stw.safeWanted = true ∧
        ∀ p, p < 16 → ((s.part p).state = .empty → (t.part p).state = .empty) ∧
          ((s.part p).state ∈ [PartState.loading, .armed, .running, .paused, .faulted] → (t.part p).state = .draining ∧ (t.part p).resetFor = some 1)) ∧
      (m ∈ [ModuleState.ready, .degraded, .safe] → allEmpty → presence s = true → ∃ t, exec (.moduleRequestService h) s = .next t ∧ acted h 0x2001 0 [] t ∧
        answersOnly { s with stw := { s.stw with mstate := .service } } t) ∧
      (m ∈ [ModuleState.ready, .degraded, .safe] → allEmpty → presence s = false → ∃ t, exec (.moduleRequestService h) s = .next t ∧ turnedAway h 0x2001 0 0x05000001 s t) ∧
      (¬ allEmpty → ∃ t, exec (.moduleRequestService h) s = .next t ∧ turnedAway h 0x2001 0 0x03000001 s t)) ∧
    (mayAct h 0x5085 0 s → ∀ v : Byte,
      (v.toNat ≤ 1 → ∃ t, exec (.acceptBelowGrade h v) s = .next t ∧ acted h 0x5085 0 [] t ∧
        answersOnly { s with brg := { s.brg with accept := v == 1 }, stw := { s.stw with mstate := if v = 1 ∧ m = .safe then .degraded else m } } t) ∧
      (1 < v.toNat → ∃ t, exec (.acceptBelowGrade h v) s = .next t ∧ turnedAway h 0x5085 0 0x02000001 s t))

/-- R217 to R219, R243, R335, R425, R454, R516, R517, R573, R574: a partition loaded, armed, started, paused, resumed, unloaded, and forced over
a
seam. -/
def Obligations.PartitionRequestResults : Prop :=
  ∀ (h : ReqHdr) (p : Nat) (s : State), p < 16 →
    let x := s.part p
    let few := x.tr.replayStep = x.next → x.tr.replayCount < 8
    (mayAct h 0x3004 (p + 1) s →
      ((s.cfg p).defined = true → x.state = .armed → (s.cfg p).shadow = false → x.mir.handed = false → ∃ t, exec (.start h p) s = .next t ∧ acted h 0x3004 (p + 1) [] t ∧
        (t.part p).state = .running ∧ (t.part p).committed = 0xFFFFFFFF ∧ (t.part p).stepsSinceStart = 0 ∧ (t.part p).pl = x.pl ∧
        (∀ n ∈ x.pl.region, (s.node n).fenced = false → (t.node n).pat.current = 0 ∧ (t.node n).pat.phase = .inStep ∧ (t.node n).pat.active = (s.node n).pat.home) ∧
        ((s.cfg p).prot = true → (t.part p).keys.starts = x.keys.starts + 1 ∧ (t.part p).keys.rewinds = 0)) ∧
      (x.state ≠ .armed → ∃ t, exec (.start h p) s = .next t ∧ turnedAway h 0x3004 (p + 1) 0x03000001 s t) ∧
      (x.state = .running → ∃ t, exec (.pause h p) s = .next t ∧ underWay h 0x3004 (p + 1) p (statesBut [3]) t ∧
        answersOnly (s.updPart p (fun x => { x with pauseReq := some (x.pauseReq.getD 0x0C) })) t) ∧
      (x.state ≠ .running → ∃ t, exec (.pause h p) s = .next t ∧ turnedAway h 0x3004 (p + 1) 0x03000001 s t) ∧
      (∀ img i r, x.state = .paused → x.pl.image = some img → restorePoison (undoStep s p) p = (r, true) →
        choosePlacement r p img ((undoStep s p).node x.pl.commitHome).pat.ctag = some i →
        ∃ t, exec (.resume h p) s = .next t ∧ acted h 0x3004 (p + 1) [] t ∧ (t.part p).state = .running ∧ (t.part p).jobDone = false ∧
          (t.part p).committed = x.committed) ∧
      (x.state ≠ .paused → ∃ t, exec (.resume h p) s = .next t ∧ turnedAway h 0x3004 (p + 1) 0x03000001 s t) ∧
      (x.state ∈ [PartState.loading, .armed, .paused, .faulted] → ∃ t, exec (.unload h p) s = .next t ∧ underWay h 0x3004 (p + 1) p [0] t ∧ (t.part p).state = .draining ∧
        (t.part p).resetFor = some 1 ∧ ∀ n ∈ x.pl.region, (s.node n).fenced = false → (t.node n).pat.phase = .stopped) ∧
      (x.state = .running → ∃ t, exec (.unload h p) s = .next t ∧ turnedAway h 0x3004 (p + 1) 0x03000001 s t) ∧
      (x.state = .running → x.seam ≠ none → few → ∃ t, exec (.forceSeam h p) s = .next t ∧ acted h 0x3004 (p + 1) [] t ∧
        ∀ n ∈ x.pl.region, (s.node n).pat.nextValid = true → (t.node n).pat.nextValid = false ∧ (t.node n).pat.ctag = (s.node n).pat.nextCtag) ∧
      (x.state = .running → x.seam = none → ∃ t, exec (.forceSeam h p) s = .next t ∧ turnedAway h 0x3004 (p + 1) 0x03000001 s t)) ∧
    (∀ img, mayAct h 0x3010 (p + 1) s → (s.cfg p).defined = true → x.state = .empty →
      (∀ code, admission s p img = some code → code ≠ 0 → ∃ t, exec (.imageLoad h p img) s = .next t ∧ turnedAway h 0x3010 (p + 1) code s t) ∧
      (admission s p img = none → ∃ t, exec (.imageLoad h p img) s = .next t ∧ (t.part p).pl.image = some img ∧ (t.part p).pl.digest = imageDigest img ∧
        (t.part p).stepsSinceStart = 0 ∧ t.io.mark p = 0 ∧
        (awaitsKeys s p = true → (t.part p).state = .loading ∧ (t.part p).reason = 0x0B ∧ underWay h 0x3010 (p + 1) p (statesBut [1]) t) ∧
        (awaitsKeys s p = false → ((t.part p).state = .loading ∧ (t.part p).reason = 0 ∧ underWay h 0x3010 (p + 1) p (statesBut [1]) t) ∨
          (t.part p).state = .faulted ∧ (t.part p).reason = 0x06))) ∧
    (∀ img, x.state = .loading → x.pl.image = some img → awaitsKeys s p = false → x.pl.region ≠ [] →
      (armFaults s x.pl.region (firstTag img) = [] → x.fromFaulted = false → ∃ t, exec (.armBarrierComplete p) s = .next t ∧ (t.part p).state = .armed ∧
        (t.part p).committed = 0xFFFFFFFF ∧ (t.part p).rep = {} ∧ (t.part p).tr = {} ∧
        ∀ n ∈ x.pl.region, (t.node n).pat.phase = .armed ∧ (t.node n).pat.ctag = firstTag img ∧ (t.node n).pat.committed = 0xFFFFFFFF ∧ (t.node n).halted = false) ∧
      (armFaults s x.pl.region (firstTag img) = [] → x.fromFaulted = true → x.pl.commitHome ∈ x.pl.region → ∃ t, exec (.armBarrierComplete p) s = .next t ∧ (t.part p).state = .running ∧
        (t.part p).committed = x.committed ∧ (t.part p).fromFaulted = false ∧
        ∀ n ∈ x.pl.region, (s.node n).fenced = false → (t.node n).pat.current = x.committed + 1 ∧ (t.node n).pat.phase = .inStep) ∧
      (armFaults s x.pl.region (firstTag img) ≠ [] → ∃ t, exec (.armBarrierComplete p) s = .next t ∧ (t.part p).state = .faulted ∧ (t.part p).reason = 0x0A)) ∧
    (mayAct h 0x3014 (p + 1) s → ∀ v : U64,
      ((s.cfg p).prot = false → ∃ t, exec (.tenantSeed h p v) s = .next t ∧ acted h 0x3014 (p + 1) [] t ∧ answersOnly (s.updPart p (fun x => { x with tenantSeed := v })) t) ∧
      ((s.cfg p).prot = true → ∃ t, exec (.tenantSeed h p v) s = .next t ∧ turnedAway h 0x3014 (p + 1) 0x03000001 s t))

/-- R289 to R292, R295, R307, R508, R529: bobbins opened, closed and moved by request. -/
def Obligations.BobbinRequestResults : Prop :=
  ∀ (h : ReqHdr) (s : State),
    (∀ v : List Byte,
      let n (i k : Nat) : Nat := leNat ((v.drop i).take k)
      let p := match h.who with | .function f => if f = 0 then n 2 1 else f - 1 | .segment .. => n 2 1
      let l := n 0 2
      let fl := nth 0 v 3
      let units := (16 * n 12 4 + 4095) / 4096
      mayAct h 0x4010 0 s →
        (v.length ≠ 32 → ∃ t, exec (.bobbinOpen h v) s = .next t ∧ turnedAway h 0x4010 0 0x02000002 s t) ∧
        (v.length = 32 → p < 16 → l ∈ (s.cfg p).lnodes → bit fl 0 = false → bit fl 1 = false → fld fl 7 6 = 0 → fld fl 3 2 ≠ 3 → n 4 1 ≤ 16 → 1 ≤ n 6 2 → n 6 2 ≤ 4096 → n 16 8 % 4096 = 0 →
          (∀ e at', e < 4096 → (s.bobbin l e).state = 0 → (∀ k, k < e → (s.bobbin l k).state ≠ 0) → listFit s p l units = some at' →
            ∃ t, exec (.bobbinOpen h v) s = .next t ∧ acted h 0x4010 0 (leBytes 4 (4096 * l + e)) t ∧ otherNodes (lNode l) s t ∧
              (let b := t.bobbin l e
               b.state = 1 ∧ b.part = p ∧ b.tpp = n 4 1 ∧ b.planes = n 6 2 ∧ b.session = BitVec.ofNat 32 (n 8 4) ∧ b.list = at' ∧ b.listCap = n 12 4 ∧ b.aux = n 16 8 ∧ b.auxLen = n 24 4) ∧
              (∀ k, k ≠ e → t.bobbin l k = s.bobbin l k) ∧ (∀ i, i < 4096 * units → t.lining.byte (linBase l + 4096 * at' + i) = 0) ∧ t.parts = s.parts) ∧
          ((∀ e, e < 4096 → (s.bobbin l e).state ≠ 0) → ∃ t, exec (.bobbinOpen h v) s = .next t ∧
            answered h.who h.seq (opOf h) 3 0x4010 0 (leBytes 4 0x04000001) t ∧ (t.ln l).refused = satAdd (s.ln l).refused 1 ∧ (t.ln l).bobbins = (s.ln l).bobbins))) ∧
    (∀ (handle : U32) l e, handleAt s h.who handle.toNat = some (l, e) →
      let b := s.bobbin l e
      (mayAct h 0x4011 0 s →
        ((s.part b.part).state = .running → ∃ t, exec (.bobbinClose h handle) s = .next t ∧ acted h 0x4011 0 [] t ∧ answersOnly (s.updBobbin l e (fun b => { b with state := 2 })) t) ∧
        ((s.part b.part).state ≠ .running → ∃ t, exec (.bobbinClose h handle) s = .next t ∧ acted h 0x4011 0 [] t ∧ (t.bobbin l e) = {} ∧
          (∀ k, k ≠ e → t.bobbin l k = s.bobbin l k) ∧ (∀ q ∈ (t.ln l).promos, q.entry ≠ e) ∧ (∀ q ∈ (t.ln l).sealedPages, q.entry ≠ e) ∧ t.parts = s.parts)) ∧
      (mayAct h 0x4012 0 s →
        (∃ t new, exec (.bobbinPromoteAll h handle) s = .next t ∧ acted h 0x4012 0 [] t ∧ answersOnly (s.updLn l (fun x => { x with promos := x.promos ++ new })) t ∧
          ∀ q : PageMove, q ∈ new ↔ (q.entry = e ∧ q.pf = 33 ∧ q.page < b.listCap ∧ pleValid (ple s l b q.page) = true ∧ pleLin (ple s l b q.page) = false ∧
            ∀ y ∈ (s.ln l).promos, y.entry = e → y.page ≠ q.page)) ∧
        (∃ t new, exec (.bobbinDemoteAll h handle) s = .next t ∧ acted h 0x4012 0 [] t ∧ answersOnly (s.updLn l (fun x => { x with demos := x.demos ++ new })) t ∧
          ∀ q : PageMove × Bool, q ∈ new ↔ (q.1.entry = e ∧ q.1.pf = 0 ∧ q.2 = false ∧ q.1.page < b.listCap ∧ pleValid (ple s l b q.1.page) = true ∧
            pleLin (ple s l b q.1.page) = true ∧ ∀ y ∈ (s.ln l).demos, y.1.entry = e → y.1.page ≠ q.1.page)))) ∧
    (∀ handle : U32, handleAt s h.who handle.toNat = none →
      (mayAct h 0x4011 0 s → ∃ t, exec (.bobbinClose h handle) s = .next t ∧ turnedAway h 0x4011 0 0x02000001 s t) ∧
      (mayAct h 0x4012 0 s → (∃ t, exec (.bobbinPromoteAll h handle) s = .next t ∧ turnedAway h 0x4012 0 0x02000001 s t) ∧
        ∃ t, exec (.bobbinDemoteAll h handle) s = .next t ∧ turnedAway h 0x4012 0 0x02000001 s t))

/-- R395, R396, R416 to R418, R453 to R456, R461, R473: nodes fenced and tested by request, and resets of a node, a cluster, a partition and the
module. -/
def Obligations.NodeRequestResults : Prop :=
  ∀ (h : ReqHdr) (s : State),
    let few (p : Nat) := (s.part p).tr.replayStep = (s.part p).next → (s.part p).tr.replayCount < 8
    (∀ n : U32, nodeExists n.toNat = true →
      let m := n.toNat
      (mayAct h 0x5040 0 s → (s.node m).fenced = false → ∃ t, exec (.fenceNode h n) s = .next t ∧ acted h 0x5040 0 [] t ∧ (t.node m).fenced = true ∧
        (t.node m).core.run = false ∧ (t.node m).mc.run = false ∧ (t.node m).mc.window = [] ∧ (t.entry m).state = 1 ∧ (t.entry m).code = 0x00 ∧
        (t.entry m).faults = (s.entry m).faults ∧ t.stw.f.gen = (s.stw.f.gen + 1) % 2 ^ 32 ∧ t.stw.f.notes.length = s.stw.f.notes.length + 1 ∧ otherNodes m s t) ∧
      (mayAct h 0x5041 0 s → (s.entry m).state = 1 → s.stw.moduleReset = none →
        (testDivider (s.panel (panelOf m)).core = false → ∀ pass, ∃ t, exec (.retestNode h n pass) s = .next t ∧ turnedAway h 0x5041 0 0x03000002 s t) ∧
        (testDivider (s.panel (panelOf m)).core = true →
          (fenceStays (s.entry m).code = false → ∃ t, exec (.retestNode h n true) s = .next t ∧ acted h 0x5041 0 [] t ∧ (t.node m).fenced = false ∧ (t.node m).fault = 0 ∧
            (t.entry m).state = 0 ∧ (t.entry m).router = 0 ∧ (t.entry m).code = (s.entry m).code ∧ (t.router m).dead = false ∧ otherNodes m s t) ∧
          (∃ t, exec (.retestNode h n false) s = .next t ∧ acted h 0x5041 0 [] t ∧ t.stw.f.map = s.stw.f.map ∧ (t.node m).fenced = (s.node m).fenced ∧
            (t.node m).resetting = true ∧ otherNodes m s t))) ∧
      (mayAct h 0x5041 0 s → (s.entry m).state ≠ 1 → ∀ pass, ∃ t, exec (.retestNode h n pass) s = .next t ∧ turnedAway h 0x5041 0 0x03000001 s t) ∧
      (mayAct h 0x5070 0 s → higherReset s m = false →
        ((∀ p, p < 16 → m ∉ s.region p) → ∃ t, exec (.resetNode h n) s = .next t ∧ acted h 0x5070 0 [] t ∧ t.node m = (s.node m).reset ∧ otherNodes m s t ∧ t.parts = s.parts) ∧
        (∀ p, p < 16 → m ∈ s.region p → (∀ q, q < 16 → q ≠ p → m ∉ s.region q) → (s.part p).state = .running → few p → ∃ t, exec (.resetNode h n) s = .next t ∧
          acted h 0x5070 0 [] t ∧ (t.part p).tr.replayStep = (s.part p).next ∧ (kindOf m ≠ .l → (t.node m).fault = 0))) ∧
      (mayAct h 0x5070 0 s → higherReset s m = true → ∃ t, exec (.resetNode h n) s = .next t ∧ turnedAway h 0x5070 0 0x03000001 s t)) ∧
    (mayAct h 0x5071 0 s → s.stw.moduleReset = none → ∀ c : Byte, c.toNat < 168 →
      (∀ p, p < 16 → (s.cfg p).clusters.getLsbD c.toNat = true → (s.part p).state ∉ [PartState.running, .paused, .draining]) →
      ∃ t, exec (.resetCluster h c) s = .next t ∧ acted h 0x5071 0 [] t ∧ t.parts = s.parts ∧
        ∀ n, (n ∈ clusterNodes c.toNat → (t.node n).resetting = true ∧ (t.node n).fault = 0 ∧ (t.node n).ins = [] ∧
          (Table.wf (s.node n).pad.owners = true → ∀ b, b < padBytes n / 0x100000 → (t.node n).pad.owner b = 0)) ∧ (n ∉ clusterNodes c.toNat → t.node n = s.node n)) ∧
    (mayAct h 0x5072 0 s → s.stw.moduleReset = none → ∀ p : Byte, p.toNat < 16 →
      let x := s.part p.toNat
      (x.state ∈ [PartState.armed, .running, .paused, .faulted] → ∃ t, exec (.resetPartition h p) s = .next t ∧ underWay h 0x5072 0 p.toNat [0, 4, 7] t ∧
        (t.part p.toNat).state = .draining ∧ (t.part p.toNat).resetFor = some 0) ∧
      (x.state ∈ [PartState.draining, .resetting] → x.resetFor ≠ none → ∃ t, exec (.resetPartition h p) s = .next t ∧ underWay h 0x5072 0 p.toNat [0, 4, 7] t ∧ answersOnly s t) ∧
      (x.state ∈ [PartState.empty, .loading] → ∃ t, exec (.resetPartition h p) s = .next t ∧ turnedAway h 0x5072 0 0x03000001 s t)) ∧
    (mayAct h 0x5073 0 s → ∀ magic : U32,
      (magic ≠ 0x52455345 → ∃ t, exec (.resetModule h magic) s = .next t ∧ turnedAway h 0x5073 0 0x02000001 s t) ∧
      (magic = 0x52455345 → s.stw.moduleReset = none →
        ((∀ p, p < 16 → (s.part p).state = .empty) → ∃ t, exec (.resetModule h magic) s = .next t ∧ acted h 0x5073 0 [] t ∧ t.stw.moduleReset = none ∧ t.stw.f.dirty = false ∧
          ∀ n, (t.node n).core.seed = 0 ∧ (t.node n).ln.keyCur = none ∧ (t.node n).ln.keyPrev = none ∧ ((s.node n).fenced = false → (t.node n).fault = 0 ∧ (t.node n).ins = [])) ∧
        (∀ p, p < 16 → (s.part p).state ∈ [PartState.armed, .running, .paused, .faulted] → ∃ t, exec (.resetModule h magic) s = .next t ∧ underWay h 0x5073 0 16 [] t ∧
          t.stw.moduleReset = some s.stw.mstate ∧ (t.part p).state = .draining ∧ (t.part p).resetFor = some 2))) ∧
    (mayAct h 0x6010 0 s → ∀ v : Byte,
      (v = 1 → ∃ t, exec (.counterClear h v) s = .next t ∧ acted h 0x6010 0 [] t ∧ t.nodes = s.nodes ∧
        ∀ r p, (t.router r).badPackets = 0 ∧ (t.router r).abortedPackets = 0 ∧ ((t.router r).port p).crcErrors = 0 ∧ ((t.router r).port p).retries = 0 ∧
          ((t.router r).port p).packets = 0 ∧ ((t.router r).port p).state = ((s.router r).port p).state) ∧
      (v ≠ 1 → ∃ t, exec (.counterClear h v) s = .next t ∧ turnedAway h 0x6010 0 0x02000001 s t))

/-- R266, R454, R524, R569 to R579, R583 to R591, R597, R598: tenant keys delivered, rotated and walked, reports, debug classes and re-sealing. -/
def Obligations.KeyResults : Prop :=
  ∀ (h : ReqHdr) (p : Nat) (s : State), p < 16 →
    let k := (s.part p).keys
    (∀ v : List Byte, mayAct h 0x7011 (p + 1) s →
      (v.length ≠ 1809 → ∃ t, exec (.keyDeliver h p v) s = .next t ∧ turnedAway h 0x7011 (p + 1) 0x02000002 s t) ∧
      (v.length = 1809 → leNat (v.take 2) = 1 →
        ((s.cfg p).prot = false ∨ k.installed = true → ∃ t, exec (.keyDeliver h p v) s = .next t ∧ turnedAway h 0x7011 (p + 1) 0x03000001 s t) ∧
        ((s.cfg p).prot = true → k.installed = false →
          (openBundle k p v = none → ∃ t, exec (.keyDeliver h p v) s = .next t ∧ turnedAway h 0x7011 (p + 1) 0x05000003 s t) ∧
          (∀ b, openBundle k p v = some b →
            (k.holdsMemory = true → kcvOf (b.take 32) ≠ k.kcv → ∃ t, exec (.keyDeliver h p v) s = .next t ∧ turnedAway h 0x7011 (p + 1) 0x05000003 s t) ∧
            ((k.holdsMemory = true → kcvOf (b.take 32) = k.kcv) → ∃ t, exec (.keyDeliver h p v) s = .next t ∧ acted h 0x7011 (p + 1) [] t ∧
              (let k' := (t.part p).keys
               let e := if k.holdsMemory = true then k.epoch else leNat ((b.drop 40).take 2)
               k'.installed = true ∧ k'.master = b.take 32 ∧ k'.seed = BitVec.ofNat 64 (leNat ((b.drop 32).take 8)) ∧ k'.starts = 0 ∧ k'.rewinds = 0 ∧ k'.epoch = e ∧
               k'.kcv = kcvOf (b.take 32) ∧ k'.holdsMemory = true ∧
               ((s.part p).state ≠ .loading → ∀ l ∈ (s.cfg p).lnodes, (t.ln l).keyCur = some (e, memKey (b.take 32) e)))))))) ∧
    (∀ v : Byte, mayAct h 0x7012 (p + 1) s →
      (v ≠ 1 → ∃ t, exec (.keyRotate h p v) s = .next t ∧ turnedAway h 0x7012 (p + 1) 0x02000001 s t) ∧
      (v = 1 → k.walking = true → k.installed = true → ∃ t, exec (.keyRotate h p v) s = .next t ∧ turnedAway h 0x7012 (p + 1) 0x03000003 s t) ∧
      (v = 1 → k.walking = false → mayRotate s p = true → ∃ t, exec (.keyRotate h p v) s = .next t ∧ underWay h 0x7012 (p + 1) (32 + p) [] t ∧
        (t.part p).keys = { k with epoch := k.epoch + 1, walking := true, walkTarget := k.epoch + 1, walkBad := [], wrapHeld := false } ∧
        ∀ l ∈ (s.cfg p).lnodes, (t.ln l).keyPrev = (s.ln l).keyCur ∧ (t.ln l).keyCur = some (k.epoch + 1, memKey k.master (k.epoch + 1)))) ∧
    (k.walking = true → k.installed = true →
      (∀ l e i, (walkPages s p).find? (fun w => !walkStuck s p w) = some (.frame l e i) → ∃ t, exec (.walkerPageMove p) s = .next t ∧
        ple t l (s.bobbin l e) i = setFld (ple s l (s.bobbin l e) i) 67 52 k.walkTarget) ∧
      (∀ page, (walkPages s p).find? (fun w => !walkStuck s p w) = some (.general page) → ∃ t, exec (.walkerPageMove p) s = .next t ∧
        Table.get 0 (t.part p).pl.ptt page = setFld (Table.get 0 (s.part p).pl.ptt page) 36 21 k.walkTarget ∧ (t.part p).keys = k) ∧
      (∀ u o v e, (walkPages s p).find? (fun w => !walkStuck s p w) = some (.bolt u) → xlate s p (0x20000000000 + 4096 * u) false = .bolt o v e →
        let ls := (s.cfg p).lnodes
        (boltPageRead s (nth 0 ls (u % ls.length)) true v o).2.2 = true → ∃ t, exec (.walkerPageMove p) s = .next t ∧ u ∈ (t.part p).keys.walkBad) ∧
      (walkPages s p = [] → k.wrapHeld = false → ∃ t, exec (.walkerPageMove p) s = .next t ∧ (t.part p).keys.walking = false ∧
        (∀ l ∈ (s.cfg p).lnodes, (t.ln l).keyPrev = none ∧ (t.ln l).keyCur = (s.ln l).keyCur) ∧ t.lining = s.lining ∧ t.bolt = s.bolt))

/-- R454, R524, R583 to R591, R597, R598: reports, debug classes, and the re-seal record. -/
def Obligations.AttestationResults : Prop :=
  ∀ (h : ReqHdr) (s : State),
    (∀ v : List Byte, mayAct h 0x7000 0 s →
      (v.length ≠ 40 → ∃ t, exec (.attest h v) s = .next t ∧ turnedAway h 0x7000 0 0x02000002 s t) ∧
      (v.length = 40 → leNat (v.take 1) ≠ 1 → leNat (v.take 1) ≠ 2 → ∃ t, exec (.attest h v) s = .next t ∧ turnedAway h 0x7000 0 0x02000001 s t) ∧
      (v.length = 40 → leNat (v.take 1) = 1 ∨ leNat (v.take 1) = 2 → h.execute = true → (s.stw.d.transfers.filter (fun x => x.who == h.who)).length < 8 →
        let r := report s (leNat (v.take 1)) (leNat ((v.drop 4).take 2)) ((v.drop 8).take 32)
        ∃ t x, exec (.attest h v) s = .next t ∧ answered h.who h.seq 5 5 0x7000 0 (xferDesc r.length x ++ r.take 1016) t ∧ t.nodes = s.nodes ∧ t.parts = s.parts ∧
          t.stw.d.transfers = s.stw.d.transfers ++ [⟨x, h.who, 5, 0x7000, 0, r.length, r, 1016⟩])) ∧
    (∀ c (v : Byte), c < 168 → mayAct h 0x7020 (c + 1) s →
      let cur := Table.get 0 s.sec.debugCls c
      let set (u : State) : State := { u with sec := { u.sec with debugCls := Table.put u.sec.debugCls c v.toNat } }
      (2 < v.toNat → ∃ t, exec (.debugClassRaise h c v) s = .next t ∧ turnedAway h 0x7020 (c + 1) 0x02000001 s t) ∧
      (cur < v.toNat → v.toNat ≤ 2 → sealLatched s = true → ∃ t, exec (.debugClassRaise h c v) s = .next t ∧ turnedAway h 0x7020 (c + 1) 0x05000002 s t) ∧
      (cur < v.toNat → v.toNat = 1 → sealLatched s = false → ∃ t, exec (.debugClassRaise h c v) s = .next t ∧ acted h 0x7020 (c + 1) [] t ∧ answersOnly (set s) t) ∧
      (cur < v.toNat → v.toNat = 2 → sealLatched s = false → ∃ t, exec (.debugClassRaise h c v) s = .next t ∧ acted h 0x7020 (c + 1) [] t ∧
        Table.get 0 t.sec.debugCls c = 2 ∧
        (∀ n ∈ clusterNodes c, (t.node n).halted = true ∧ (t.node n).resetting = true ∧ (t.node n).core.seed = 0 ∧ (t.node n).core.tiles = [] ∧
          (t.node n).core.scalars = [] ∧ (t.node n).core.preds = [] ∧ (t.node n).ln.keyCur = none ∧ (t.node n).ln.keyPrev = none) ∧
        ∀ p, p < 16 → (s.cfg p).prot = true → (s.cfg p).clusters.getLsbD c = true → (s.part p).state ∈ [PartState.armed, .running, .paused, .faulted] → (s.part p).resetFor = none →
          (t.part p).state = .faulted ∧ (t.part p).reason = 0x0E ∧ (t.part p).keys.installed = false ∧ (t.part p).keys.master = []) ∧
      (v.toNat < cur → cur = 1 → ∃ t, exec (.debugClassLower h c v) s = .next t ∧ acted h 0x7020 (c + 1) [] t ∧ answersOnly (set s) t) ∧
      (v.toNat < cur → cur = 2 → (resetCluster s c).2 = 0 → ∃ t, exec (.debugClassLower h c v) s = .next t ∧ acted h 0x7020 (c + 1) [] t ∧
        Table.get 0 t.sec.debugCls c = v.toNat ∧ ∀ n ∈ clusterNodes c, (t.node n).resetting = true ∧ (t.node n).halted = false ∧ (t.node n).fault = 0)) ∧
    (∀ r, mayAct h 0x7030 0 s →
      let b := (sealHem s).sealBreaks
      let good := Config.signatureOk r = true ∧ Config.resealSerial r = Config.serial ∧ Config.resealBreaks r = b
      (¬ good → ∃ t, exec (.reseal h r) s = .next t ∧ turnedAway h 0x7030 0 0x05000003 s t) ∧
      (good → s.sec.loopOpen = true → ∃ t, exec (.reseal h r) s = .next t ∧ turnedAway h 0x7030 0 0x03000001 s t) ∧
      (good → s.sec.loopOpen = false → ∃ t, exec (.reseal h r) s = .next t ∧ acted h 0x7030 0 [] t ∧
        answersOnly { s with hemA := { s.hemA with reseals := max s.hemA.reseals b }, hemB := { s.hemB with reseals := max s.hemB.reseals b } } t))

/-- R456, R466, R485, R530, R592 to R596, R599: firmware put into flash and activated, and the service test. -/
def Obligations.FirmwareResults : Prop :=
  ∀ (h : ReqHdr) (s : State),
    (∀ b, mayAct h 0x7040 0 s →
      let fail (code : Nat) (t : State) : Prop := answered h.who h.seq (opOf h) 3 0x7040 0 (leBytes 4 code) t ∧ t.sec.staged = s.sec.staged ∧ fld t.sec.fwStatus 3 0 = 4 ∧
        t.hemA.bank0 = s.hemA.bank0 ∧ t.hemA.bank1 = s.hemA.bank1 ∧ t.hemB.bank0 = s.hemB.bank0 ∧ t.hemB.bank1 = s.hemB.bank1
      (bankSound b = false → ∀ x y, ∃ t, exec (.fwUpdate h b x y) s = .next t ∧ fail 0x05000003 t) ∧
      (bankSound b = true → bankSvn b < (sealHem s).arb → ∀ x y, ∃ t, exec (.fwUpdate h b x y) s = .next t ∧ fail 0x02000001 t) ∧
      (bankSound b = true → (sealHem s).arb ≤ bankSvn b → bankVersion b < s.sec.fwVersion → s.sec.downgrade = false → ∀ x y, ∃ t, exec (.fwUpdate h b x y) s = .next t ∧ fail 0x05000001 t) ∧
      (bankSound b = true → (sealHem s).arb ≤ bankSvn b → s.sec.fwVersion ≤ bankVersion b ∨ s.sec.downgrade = true → ∃ t, exec (.fwUpdate h b true true) s = .next t ∧
        acted h 0x7040 0 [] t ∧ t.sec = { s.sec with staged := some (bankDigest b), fwStatus := 2, downgrade := false } ∧
        (∀ x y : HostHem, (x = s.hemA ∧ y = t.hemA) ∨ (x = s.hemB ∧ y = t.hemB) → y.active = x.active ∧
          (if x.active = 1 then y.bank0 = b ∧ y.bank1 = x.bank1 else y.bank1 = b ∧ y.bank0 = x.bank0)))) ∧
    (mayAct h 0x7041 0 s →
      let new (x : HostHem) : List Byte := if x.active = 1 then x.bank0 else x.bank1
      let old (x : HostHem) : List Byte := if x.active = 1 then x.bank1 else x.bank0
      (s.sec.staged = none → (∀ b, ∃ t, exec (.fwActivateInPlace h b) s = .next t ∧ turnedAway h 0x7041 0 0x03000001 s t) ∧
        ∃ t, exec (.fwActivateByReset h) s = .next t ∧ turnedAway h 0x7041 0 0x03000001 s t) ∧
      (s.sec.staged ≠ none → s.hemA.active ≤ 1 → s.hemB.active ≤ 1 →
        (bankJournal (new (sealHem s)) ≠ bankJournal (old (sealHem s)) → ∀ b, ∃ t, exec (.fwActivateInPlace h b) s = .next t ∧ turnedAway h 0x7041 0 0x03000001 s t) ∧
        (bankJournal (new (sealHem s)) = bankJournal (old (sealHem s)) →
          (∃ t, exec (.fwActivateInPlace h true) s = .next t ∧ acted h 0x7041 0 [] t ∧ t.sec.fwSteward = bankDigest (new (sealHem s)) ∧ t.sec.fwStandby = bankDigest (new (sealHem s)) ∧
            t.sec.fwVersion = bankVersion (new (sealHem s)) ∧ t.hemA.active = 1 - s.hemA.active ∧ t.hemB.active = 1 - s.hemB.active ∧ t.nodes = s.nodes ∧ t.parts = s.parts) ∧
          (∃ t, exec (.fwActivateInPlace h false) s = .next t ∧ acted h 0x7041 0 [] t ∧ t.sec.fwSteward = s.sec.fwSteward ∧ t.sec.fwStandby = s.sec.fwStandby ∧
            t.sec.fwVersion = s.sec.fwVersion ∧ t.sec.staged = none ∧ t.nodes = s.nodes ∧ t.parts = s.parts)) ∧
        (∀ p, p < 16 → s.stw.moduleReset = none → (s.part p).state ∈ [PartState.armed, .running, .paused, .faulted] → ∃ t, exec (.fwActivateByReset h) s = .next t ∧
          underWay h 0x7041 0 16 [] t ∧ t.stw.moduleReset = some s.stw.mstate ∧ (t.part p).state = .draining ∧ (t.part p).resetFor = some 2 ∧
          t.hemA.active = 1 - s.hemA.active ∧ t.hemB.active = 1 - s.hemB.active))) ∧
    (mayAct h 0x9000 0 s → ∀ (v : U32) tested failed ms,
      let test := v.toNat / 2 ^ 24
      (test = 0 ∨ 10 < test → ∃ t, exec (.serviceTest h v tested failed ms) s = .next t ∧ turnedAway h 0x9000 0 0x02000001 s t) ∧
      (1 ≤ test → test ≤ 10 → ∃ t r, exec (.serviceTest h v tested failed ms) s = .next t ∧ acted h 0x9000 0 [] t ∧ t.stw.serviceResult = testBytes r ∧ r.test = test ∧
        r.tested = tested % 2 ^ 32 ∧ r.failed = failed % 2 ^ 32 ∧ r.durationMs = ms % 2 ^ 32 ∧ (∀ c, coverageOf test = some c → r.coverage = c) ∧ t.nodes = s.nodes ∧ t.parts = s.parts))

/-- R199, R443, R516, R533, R542 to R547, R551, R556, R558, R559, R586: entries of a submission ring start and complete. -/
def Obligations.RingEntryResults : Prop :=
  ∀ (f r : Nat) (e : SqEntry) (rest : List SqEntry) (s : State), mayStart f r e rest s →
    let x := s.ring f r
    let p := ringPart f x
    let P := s.part p
    let key := hostKey p (inputEp e)
    let o := s.hostIn key
    (e.op = 0x00 → ∃ t, exec (.sqNop f r) s = .next t ∧ finished f r e rest 0 0 s t ∧ t.nodes = s.nodes ∧ t.parts = s.parts ∧ t.flight = s.flight) ∧
    (e.op = 0x01 → ∀ data,
      (∀ st, inputBytes s p e data = .inr st → ∃ t, exec (.input f r data) s = .next t ∧ finished f r e rest st 0 s t ∧ t.flight = s.flight) ∧
      (∀ d, inputBytes s p e data = .inl d → P.state ≠ .running → mirrored s p = false → ∃ t, exec (.input f r data) s = .next t ∧ begun f r e rest d s t ∧
        t.flight = s.flight ∧ t.io = s.io) ∧
      (∀ d, inputBytes s p e data = .inl d → P.state = .running → mirrored s p = false → Table.get [] s.io.queue key = [] → o.broken = false → outMode o.desc = 1 →
        o.ptr + recBytes d.length ≤ 4096 * outSize o.desc → ringNeed (4096 * outSize o.desc) o.ptr (recBytes d.length) ≤ o.credit →
        ∃ t k, exec (.input f r data) s = .next t ∧ begun f r e rest d s t ∧ t.flight = s.flight ++ [k] ∧ rtType k.route = tyRecord ∧ k.data = d ∧ rhLen k.pay = d.length % 2 ^ 14 ∧
          rhEp k.pay = inputEp e ∧ rhSeq k.pay = o.seq.toNat ∧ (t.hostIn key).seq = o.seq + 1 ∧ (t.hostIn key).msgs = satAdd o.msgs 1)) ∧
    (e.op = 0x02 → ∀ data,
      (copyLenOk e = false → ∃ t, exec (.copyIn f r data) s = .next t ∧ finished f r e rest 0x02000001 0 s t ∧ t.flight = s.flight) ∧
      (copyLenOk e = true → (s.cfg p).prot = true → ∃ t, exec (.copyIn f r data) s = .next t ∧ finished f r e rest 0x01000004 0 s t ∧ t.flight = s.flight) ∧
      (copyLenOk e = true → (s.cfg p).prot = false → ∀ a ep, xlate (mapRange s p e.maddr.toNat e.len.toNat) p e.maddr.toNat true = .lining a ep →
        ∃ t k, exec (.copyIn f r data) s = .next t ∧ begun f r e rest [] s t ∧ t.flight = s.flight ++ [k] ∧ rtType k.route = tyWriteReq ∧
          k.pay = memDesc a s.io.nextTag (min e.len.toNat (4096 - e.maddr.toNat % 4096)) 0 ∧
          k.data = (hostBytes e.len.toNat data).take (min e.len.toNat (4096 - e.maddr.toNat % 4096)))) ∧
    (e.op = 0x03 →
      (copyLenOk e = false → ∃ t, exec (.copyOut f r) s = .next t ∧ finished f r e rest 0x02000001 0 s t) ∧
      (∀ a ep, copyLenOk e = true → xlate s p e.maddr.toNat false = .lining a ep → ∃ t k, exec (.copyOut f r) s = .next t ∧ begun f r e rest [] s t ∧
        t.flight = s.flight ++ [k] ∧ rtType k.route = tyReadReq ∧ k.pay = memDesc a s.io.nextTag (min e.len.toNat (4096 - e.maddr.toNat % 4096)) 0)) ∧
    (e.op = 0x04 → ∀ data,
      ((s.cfg p).prot = false ∨ P.keys.installed = false → ∃ t, exec (.import' f r data) s = .next t ∧ finished f r e rest 0x03000001 0 s t ∧ t.lining = s.lining) ∧
      ((s.cfg p).prot = true → P.keys.installed = true → importOk e = false → ∃ t, exec (.import' f r data) s = .next t ∧ finished f r e rest 0x02000001 0 s t ∧ t.lining = s.lining) ∧
      ((s.cfg p).prot = true → P.keys.installed = true → importOk e = true →
        let got := gcmOpen (importKey P.keys) (leBytes 12 e.nonce.toNat) (leBytes 8 e.maddr.toNat ++ leBytes 4 e.len.toNat) (hostBytes e.len.toNat data) (leBytes 16 e.gtag.toNat)
        (got = none → ∃ t, exec (.import' f r data) s = .next t ∧ finished f r e rest 0x05000003 0 s t ∧ (t.part p).keys = P.keys) ∧
        (∀ d a ep, got = some d → xlate (mapRange s p e.maddr.toNat e.len.toNat) p e.maddr.toNat true = .lining a ep →
          ∃ t k, exec (.import' f r data) s = .next t ∧ begun f r e rest [] s t ∧ t.flight = s.flight ++ [k] ∧ rtType k.route = tyWriteReq ∧ k.data = d.take 4096 ∧
            (e.maddr.toNat, e.len.toNat, sha384 (leBytes 8 e.maddr.toNat ++ leBytes 4 e.len.toNat ++ d)) ∈ (t.part p).keys.leaves ∧ (t.part p).keys.holdsMemory = true))) ∧
    (e.op = 0x05 → ∀ img, p < 16 → P.state = .empty →
      (∀ code, admission s p img = some code → code ≠ 0 → ∃ t, exec (.sqImage f r img) s = .next t ∧ finished f r e rest code 0 s t ∧ t.parts = s.parts) ∧
      (admission s p img = none → awaitsKeys s p = true → ∃ t, exec (.sqImage f r img) s = .next t ∧ (t.ring f r).waiting = rest ∧ (e, []) ∈ (t.ring f r).started ∧
        (t.part p).state = .loading ∧ (t.part p).reason = 0x0B ∧ (t.part p).pl.image = some img)) ∧
    (e.op = 0x06 → ∀ tk, freeTicket s = some tk →
      let id := fld e.arg 31 16
      let did (op value : Nat) (c : Instr) : Prop := entryKnotOp e = op →
        (knotValid id = false → ∃ t, exec c s = .next t ∧ finished f r e rest 0x02000001 0 s t ∧ t.flight = s.flight) ∧
        (knotValid id = true → ∃ t k, exec c s = .next t ∧ begun f r e rest [] s t ∧ t.flight = s.flight ++ [k] ∧ rtType k.route = tyKnot ∧ rtTclass k.route = 3 ∧
          k.pay = knotPay op p id tk (hostDest s (lNode (id / 256)) s.stw.hostB).at' 0 value 0 ∧ t.io.knots = s.io.knots ++ [(tk, f, r, e)] ∧ id ∈ (t.part p).pl.hostKnots)
      did 1 0 (.sqKnotArrive f r) ∧ did 2 e.len.toNat (.sqKnotAdd f r) ∧ did 3 e.len.toNat (.sqKnotWait f r) ∧ did 4 e.len.toNat (.sqKnotReset f r)) ∧
    (e.op = 0x07 →
      (P.state ≠ .running ∨ e.step.toNat < P.next → ∃ t, exec (.stepwait f r) s = .next t ∧ finished f r e rest 0 P.committed.toNat s t) ∧
      (P.state = .running → P.next ≤ e.step.toNat → ∃ t, exec (.stepwait f r) s = .next t ∧ begun f r e rest [] s t ∧ t.parts = s.parts))

/-- R187, R533, R538, R539, R542, R545, R548, R549, R563: doorbells, ring configuration, and the host output ring. -/
def Obligations.RingResults : Prop :=
  ∀ (f r : Nat) (s : State), ringOk f r = true → fnLive s f = true →
    let x := s.ring f r
    (∀ (tail : U16) entries,
      (x.enabled = false ∨ (s.fn f).ideWait = true → ∃ t, exec (.sqTailWrite f r tail entries) s = .next t ∧ t.ring f r = { x with sqTail := tail.toNat } ∧ t.nodes = s.nodes) ∧
      (x.enabled = true → (s.fn f).ideWait = false → (s.cfg (ringPart f x)).defined = true →
        let n := (tail.toNat % x.sqSize + x.sqSize - x.sqHead % x.sqSize) % x.sqSize
        (∀ e ∈ x.waiting ++ fetched n entries, SqEntry.op e ≤ 7) → ∃ t, exec (.sqTailWrite f r tail entries) s = .next t ∧
          t.ring f r = { x with sqTail := tail.toNat, sqHead := tail.toNat % x.sqSize, waiting := x.waiting ++ fetched n entries } ∧ t.nodes = s.nodes ∧ t.hostMem = s.hostMem)) ∧
    (∀ head : U16, x.comps = [] → ∃ t, exec (.cqHeadWrite f r head) s = .next t ∧ t.ring f r = { x with cqHead := head.toNat % x.cqSize } ∧ t.hostMem = s.hostMem) ∧
    (∀ head : U16, ∀ c, x.comps = [c] → (x.cqTail + 1) % x.cqSize ≠ head.toNat % x.cqSize → ∃ t, exec (.cqHeadWrite f r head) s = .next t ∧ (t.ring f r).comps = [] ∧
      (t.ring f r).cqTail = (x.cqTail + 1) % x.cqSize ∧ (t.hostMem.bytes (x.cqBase.toNat + 16 * x.cqTail) 12) = leBytes 4 c.1 ++ leBytes 4 c.2.1 ++ leBytes 4 c.2.2.1) ∧
    (∀ v : U64,
      let fits := 6 ≤ fld v 12 8 ∧ fld v 12 8 ≤ 16 ∧ 6 ≤ fld v 20 16 ∧ fld v 20 16 ≤ 16
      ∃ t, exec (.ringCfgWrite f r v) s = .next t ∧
        (x.enabled = true → bit v 63 = true → t.ring f r = x) ∧
        (x.enabled = true → bit v 63 = false → t.ring f r = { x with cfg := ringCfgBits f v }) ∧
        (x.enabled = false → bit v 63 = false → t.ring f r = { x with cfg := ringCfgBits f v, error := false }) ∧
        (x.enabled = false → bit v 63 = true → fits → t.ring f r = { x with cfg := ringCfgBits f v, error := false, sqHead := 0, cqTail := 0, phase := true }) ∧
        (x.enabled = false → bit v 63 = true → ¬ fits → (t.ring f r).enabled = false ∧ (t.ring f r).error = true)) ∧
    (∀ i q (v : U64), outIndex f i = some q → outOwned s f q = true → ∃ t, exec (.outReadWrite f i v) s = .next t ∧
      Table.get 0 (t.fn f).outRead q = min v.toNat (s.io.mark q) ∧ (t.fn f).rings = (s.fn f).rings) ∧
    (∀ p h rest, p < 16 → s.io.heldOf p = h :: rest → h.image ≠ [] → (s.cfg p).prot = false →
      let g := s.fn (outFn s p)
      let k := fld (Table.get 0 g.outCfg p) 5 0
      let u := h.image.length / 64
      (bit (Table.get 0 g.outCfg p) 63 = false ∨ Table.get 0 g.outRead p + 2 ^ k / 64 < s.io.off p + u → 64 ≤ h.image.length → exec (.outputRecordWrite p) s = .next s) ∧
      (bit (Table.get 0 g.outCfg p) 63 = true → s.io.off p + u ≤ Table.get 0 g.outRead p + 2 ^ k / 64 → 16 ≤ k → 64 ≤ h.image.length → 64 * u ≤ 2 ^ k →
        ∃ t, exec (.outputRecordWrite p) s = .next t ∧ t.io.heldOf p = rest ∧ t.io.off p = s.io.off p + u ∧
          ∀ i, i < 64 * u → t.hostMem.byte ((Table.get 0 g.outBase p).toNat + (64 * (s.io.off p + i / 64)) % 2 ^ k + i % 64) = h.image.getD i 0))

/-- R14, R504, R531 to R536, R538 to R540, R560, R561, R563, R661: register windows, BAR4, and what a Host hem's link and functions go through. -/
def Obligations.HostResults : Prop :=
  ∀ (s : State),
    (∀ f, f ≤ 16 → fnLive s f = true → ∀ v : U64,
      (∃ t, exec (.registerWrite (.bar2 f 0x0010) v) s = .next t ∧ t.fn f = { s.fn f with statusMirror := alignDown 6 v } ∧ t.nodes = s.nodes) ∧
      (∀ r, r < ringCount f → ∃ t, exec (.registerWrite (.bar2 f (0x1000 + 0x40 * r)) v) s = .next t ∧ t.ring f r = { s.ring f r with sqBase := alignDown 12 v } ∧
        t.nodes = s.nodes) ∧
      (∀ off, off % 8 = 0 → off + 8 ≤ 0x0410 → ∃ t, exec (.registerWrite (.bar0 f off) v) s = .next t ∧ (t.fn f).mbxReq.bytes off 8 = leBytes 8 v.toNat ∧
        ((s.fn f).mbxReq.wf = true → ∀ a, (a < off ∨ off + 8 ≤ a) → (t.fn f).mbxReq.byte a = (s.fn f).mbxReq.byte a))) ∧
    (∀ n off (v : U64), nodeExists n = true → off % 8 = 0 → off < 0x100000 → nodeReg s n off = none → exec (.registerWrite (.node n off) v) s = .next s) ∧
    (∀ n (v : U64), isNode [.m, .v, .f] n = true → nodeReg s n 0x018 ≠ none → bit v 63 = true → ∃ t, exec (.registerWrite (.node n 0x018) v) s = .next t ∧ onlyNode n s t ∧
      t.node n = { s.node n with fault := 0, faultLoc := 0 }) ∧
    (∀ off len, off + len ≤ 0x1000000000 → 1 ≤ len → off % 4096 + len ≤ 4096 →
      let a := (Table.get 0 (s.fn 0).apertures (off / 0x100000000)).toNat + off % 0x100000000
      (regionOf a = .none → ∃ t, exec (.bar4Read 0 off len) s = .next t ∧ t = { s with io := { s.io with readBack := List.replicate len 0 } }) ∧
      (∀ l o, regionOf a = .lining l o → o + len ≤ 0x200000000 → (s.node (lNode l)).fenced = false → linPoisoned s (linBase l + o) len = false →
        ∃ t, exec (.bar4Read 0 off len) s = .next t ∧ t = { s with io := { s.io with readBack := s.lining.bytes (linBase l + o) len } }) ∧
      (∀ data, data.length = len →
        (regionOf a = .none → ∃ t, exec (.bar4Write 0 off data) s = .next t ∧ t.hem.bar4Discards = satAdd s.hem.bar4Discards 1 ∧ t.lining = s.lining ∧ t.bolt = s.bolt ∧ t.nodes = s.nodes) ∧
        (∀ l o, regionOf a = .lining l o → o % 4096 + len ≤ 4096 → o + len ≤ 0x200000000 → linOwner s l o = none → (s.cfg (lnPart s l)).prot = false →
          ∃ t, exec (.bar4Write 0 off data) s = .next t ∧ t.lining.bytes (linBase l + o) len = data ∧ t.hem.bar4Discards = s.hem.bar4Discards ∧
            (s.lining.wf = true → ∀ b, (b < linBase l + o ∨ linBase l + o + len ≤ b) → t.lining.byte b = s.lining.byte b)))) ∧
    (let old := s.hem
     let other := if s.stw.hostB then s.hemA else s.hemB
     let swapped (t : State) : Prop := t.stw.hostB = !s.stw.hostB ∧ t.hem.role = 1 ∧ (if s.stw.hostB then t.hemB else t.hemA).role = (if old.linkUp && !old.dead then 2 else 0)
     let able := other.linkUp = true ∧ other.dead = false
     (∀ v : U64, (v = 0x54414B45 → able → ∃ t, exec (.takeover v) s = .next t ∧ swapped t) ∧ (v ≠ 0x54414B45 ∨ ¬ able → exec (.takeover v) s = .next s)) ∧
     (old.linkUp = false → able → ∃ t, exec .pcieL0LossTimeout s = .next t ∧ swapped t) ∧ (old.linkUp = true ∨ ¬ able → exec .pcieL0LossTimeout s = .next s)) ∧
    (∀ f, f ≤ 16 →
      let gone (t : State) : Prop := (∀ r, (t.ring f r).enabled = false ∧ (t.ring f r).waiting = [] ∧ (t.ring f r).started = [] ∧ (t.ring f r).comps = []) ∧
        (t.fn f).outBase = [] ∧ (t.fn f).outCfg = [] ∧ (t.fn f).outRead = [] ∧ (∀ j ∈ t.io.copies, j.f ≠ f) ∧ t.nodes = s.nodes ∧ t.parts = s.parts
      (f ≠ 0 → ∃ t, exec (.functionLevelResetVf f) s = .next t ∧ gone t) ∧ (∃ t, exec .functionLevelResetPf0 s = .next t ∧ gone t) ∧
      (f ≠ 0 → ∀ b, ∃ t, exec (.vfEnable f b) s = .next t ∧ t.fn f = { s.fn f with enabled := b } ∧ t.nodes = s.nodes) ∧
      (∃ t, exec (.ideStreamEstablished f) s = .next t ∧ t.fn f = { s.fn f with ide := true, ideWait := false } ∧ t.nodes = s.nodes)) ∧
    (∀ hem, hem = 3 ∨ hem = 10 →
      (∀ b, ∃ t, exec (.perstN hem b) s = .next t ∧ (hostAt t hem).perst = b ∧ (hostAt t hem).linkUp = ((hostAt s hem).linkUp && !b) ∧ t.nodes = s.nodes ∧ t.stw = s.stw) ∧
      (∀ w g, w ∈ [1, 2, 4, 8, 16] → (hostAt s hem).perst = false → (hostAt s hem).dead = false → ∃ t, exec (.pcieLinkUp hem w g) s = .next t ∧ (hostAt t hem).linkUp = true ∧
        (hostAt t hem).width = w ∧ (hostAt t hem).rate = g ∧ (s.pow.on = true → (hostAt t hem).role = if (hem = 10) = (s.stw.hostB = true) then 1 else 2) ∧ t.nodes = s.nodes) ∧
      ((hostAt s hem).perst = true → ∀ w g, w ∈ [1, 2, 4, 8, 16] → exec (.pcieLinkUp hem w g) s = .next s) ∧
      ((hostAt s hem).dead = false → s.pow.on = true → (hostAt s hem).polarity = false → ∃ t, exec (.t1sPolarityReversed hem) s = .next t ∧ (hostAt t hem).polarity = true ∧
        ∃ e, t.pow.events.getLast? = some e ∧ e.code = 0x0B ∧ e.subject = 64 + hem ∧ e.time = s.clock))

/-- R603, R604, R607, R613 to R616, R619, R623, R625 to R627: a module paired with its twin, kept so, detached and lost. -/
def Obligations.PairingResults : Prop :=
  ∀ (s : State),
    let w := s.twin
    (∀ (h : ReqHdr) (v : List Byte), mayAct h 0x8010 0 s →
      (v.length ≠ 24 → ∃ t, exec (.twinPair h v) s = .next t ∧ turnedAway h 0x8010 0 0x02000002 s t) ∧
      (v.length = 24 → leNat (v.take 2) = 1 → fld (nth 0 v 2) 7 1 = 0 →
        (w.state ≠ twUnpaired → w.state ≠ twLost → ∃ t, exec (.twinPair h v) s = .next t ∧ turnedAway h 0x8010 0 0x03000001 s t) ∧
        (w.state = twUnpaired ∨ w.state = twLost → ∃ t u, exec (.twinPair h v) s = .next t ∧ acted h 0x8010 0 [] t ∧ onlyTwin s u ∧ answersOnly u t ∧
          t.twin.state = twPairing ∧ t.twin.record = v ∧ t.twin.override = false ∧ t.twin.peer = none ∧ t.twin.nonce.isSome = true ∧
          (w.addr ≠ 0 → ∀ k ∈ twinUp s, emits k [(fHello, helloBytes (ownHello t))] s t)))) ∧
    (∀ (port : Nat) (f : Frame) (info : HelloInfo), arrives fHello port f s → port ∈ twinPorts →
      let joins := w.state = twPairing ∧ w.record ≠ []
      let wanted := joins ∧ leBytes 16 info.serial.toNat = (w.record.drop 4).take 16 ∧ leNat ((w.record.drop 20).take 2) = info.addr.toNat ∧ info.addr = f.src
      let expected := ¬ joins ∧ leBytes 16 info.serial.toNat = w.expect ∧ info.serial ≠ 0 ∧ info.addr = f.src
      let conflict := domainsConflict w.domains info.domains
      (∀ peer, twinLinked s = true → w.peer = some peer → ∃ t, exec (.hello port f info) s = .next t ∧ onlyTwin s t ∧
        t.twin = { w with ports := t.twin.ports, lastTwin := s.clock, status := if peer.serial = info.serial then w.status else 0x03000001 } ∧
        t.spPort port = { s.spPort port with peerAddr := f.src.toNat }) ∧
      (twinLinked s = false → ¬ wanted → ¬ expected → ∃ t, exec (.hello port f info) s = .next t ∧ onlyTwin s t ∧ t.twin.status = 0x05000003 ∧
        t.twin.state = (if w.state = twPairing then twUnpaired else w.state) ∧ t.twin.linkId = w.linkId) ∧
      (wanted → conflict = true → bit (nth 0 w.record 2) 0 = false → ∃ t, exec (.hello port f info) s = .next t ∧ onlyTwin s t ∧ t.twin.status = 0x04000003 ∧
        t.twin.state = twUnpaired ∧ t.twin.peer = none) ∧
      (wanted → (conflict = true → bit (nth 0 w.record 2) 0 = true) → ∃ t, exec (.hello port f info) s = .next t ∧ onlyTwin s t ∧ t.twin.state = twPairing ∧
        t.twin.peer = some info ∧ t.twin.override = conflict ∧ t.twin.record = w.record ∧
        (w.addr ≠ 0 → emits port [(fProof, Config.chain ++ Config.sign (transcript t info))] s t)) ∧
      (twinLinked s = false → expected → conflict = false → ∃ t, exec (.hello port f info) s = .next t ∧ onlyTwin s t ∧ t.twin.state = twPairing ∧
        t.twin.peer = some info ∧ t.twin.override = false ∧ t.twin.record = [] ∧
        (w.addr ≠ 0 → emits port [(fHello, helloBytes (ownHello t)), (fProof, Config.chain ++ Config.sign (transcript t info))] s t))) ∧
    (∀ (port : Nat) (f : Frame) (peer : HelloInfo), arrives fProof port f s → w.peer = some peer → w.state = twPairing → fromTwin s port f = true →
      (Config.signatureOk (transcript s peer ++ f.data) = false → ∃ t, exec (.proof port f) s = .next t ∧ onlyTwin s t ∧ t.twin.status = 0x05000003 ∧
        t.twin.state = twUnpaired ∧ t.twin.peer = none ∧ t.twin.linkId = w.linkId) ∧
      (Config.signatureOk (transcript s peer ++ f.data) = true →
        (∃ t, exec (.proof port f) s = .next t ∧ t.twin.linkId = (transcript s peer).take 16 ∧ (t.twin.state = twPaired ∨ t.twin.state = twSyncing)) ∧
        ((∀ p, p < 16 → (s.cfg p).mirror = true → (s.part p).state ≠ .running ∧ (s.part p).state ≠ .paused) → ∃ t, exec (.proof port f) s = .next t ∧
          onlyTwin s t ∧ t.twin = { w with state := twPaired, copying := [], linkId := (transcript s peer).take 16, streams := [], lastTwin := s.clock }))) ∧
    (w.state = twPairing → twinUp s = [] → exec .pairingTimeout s =
      .next { s with twin := { w with status := 0x06000002, state := twUnpaired, peer := none } }) ∧
    (s.pow.on = true → twSyncing ≤ w.state → w.state ≠ twDetaching → w.addr ≠ 0 → ∃ t, exec .heartbeatSend s = .next t ∧ onlyTwin s t ∧
      t.twin = { w with ports := t.twin.ports } ∧ (∀ k ∈ twinUp s, emits k [(fHeartbeat, [])] s t) ∧ ∀ k, k ∉ twinUp s → t.spPort k = s.spPort k) ∧
    (∀ (port : Nat) (f : Frame), arrives fHeartbeat port f s → exec (.heartbeat port f) s = .next (if port ∈ twinPorts then
        ({ s with twin := { w with lastTwin := s.clock } }).updSp port (fun x => { x with peerAddr := f.src.toNat }) else s)) ∧
    (∀ (port : Nat) (f : Frame), arrives fAck port f s → fromTwin s port f = true →
      (w.state = twPaired → exec (.ack port f) s = .next (({ s with twin := { w with lastTwin := s.clock } }).updStream f.stream.toNat
        (fun x => { x with unacked := x.unacked.filter (fun g => decide (f.arg.toNat % 2 ^ 64 < g.eseq.toNat)) }))) ∧
      (w.state = twSyncing → ∃ t, exec (.ack port f) s = .next t ∧ onlyTwin s t ∧
        ((∀ p, p < 16 → (s.cfg p).mirror = true → drained t p = true) → t.twin.state = twPaired) ∧
        ((∃ p, p < 16 ∧ (s.cfg p).mirror = true ∧ drained t p = false) → t.twin.state = twSyncing) ∧
        (t.stream f.stream.toNat).unacked = (s.stream f.stream.toNat).unacked.filter (fun g => decide (f.arg.toNat % 2 ^ 64 < g.eseq.toNat)))) ∧
    (∀ (stream : U16) k, pinned s stream.toNat = some k →
      (w.addr ≠ 0 → (s.stream stream.toNat).sinceAck ≠ 0 → (s.stream stream.toNat).expect ≠ 0 → ∃ t, exec (.ackTimer stream) s = .next t ∧ onlyTwin s t ∧
        t.stream stream.toNat = { s.stream stream.toNat with sinceAck := 0 } ∧
        ∃ g : Frame, (t.spPort k).sent = (s.spPort k).sent ++ [(1, g)] ∧ g.ty.toNat = fAck ∧ g.stream = stream ∧ g.dst = peerAddr s ∧
          g.arg = BitVec.ofNat 128 ((s.stream stream.toNat).expect - 1)) ∧
      ∃ t, exec (.resendTimer stream) s = .next t ∧ onlyTwin s t ∧ t.twin = { w with ports := t.twin.ports } ∧
        (t.spPort k).sent = (s.spPort k).sent ++ (s.stream stream.toNat).unacked.map (fun g => (1, g)) ∧ ∀ q, q ≠ k → t.spPort q = s.spPort q) ∧
    (twinLinked s = true → (∀ q, q < 16 → (s.part q).mir.restoring = []) →
      ((∀ q, q < 16 → (s.part q).state ≠ .running) → ∃ t, exec .twinTimeout s = .next t ∧ t = { s with twin := t.twin, parts := t.parts } ∧
        (∀ q, t.part q = s.part q) ∧ t.twin = { w with state := twLost, detaching := false, copying := [], streams := t.twin.streams } ∧
        ∀ k, t.stream k = { s.stream k with ends := [] }) ∧
      ∀ p, p < 16 → (∀ q, q < 16 → ((s.part q).state = .running ↔ q = p)) → (s.cfg p).mirror = true → (s.cfg p).onTwinLoss = 0 →
        ∃ t, exec .twinTimeout s = .next t ∧ t.twin.state = twLost ∧ (t.part p).state = .paused ∧ (t.part p).reason = 3) ∧
    (∀ (h : ReqHdr) (v : Byte), mayAct h 0x8012 0 s →
      let left := ∃ p, p < 16 ∧ (s.cfg p).mirrorPeer = 0xFF ∧ bobbinsOf s p (fun _ => true) ≠ []
      (v ≠ 1 → ∃ t, exec (.twinDetach h v) s = .next t ∧ turnedAway h 0x8012 0 0x02000001 s t) ∧
      (v = 1 → w.state ≠ twPaired → ∃ t, exec (.twinDetach h v) s = .next t ∧ turnedAway h 0x8012 0 0x03000001 s t) ∧
      (v = 1 → w.state = twPaired → left → ∃ t, exec (.twinDetach h v) s = .next t ∧ turnedAway h 0x8012 0 0x04000003 s t) ∧
      (v = 1 → w.state = twPaired → ¬ left → Config.free s.free % 2 = 1 → ∃ t, exec (.twinDetach h v) s = .next t ∧ turnedAway h 0x8012 0 0x04000004 s t) ∧
      ∀ p, v = 1 → w.state = twPaired → ¬ left → Config.free s.free % 2 = 0 → p < 16 → (s.cfg p).mirrorPeer ≠ 0xFF → (s.part p).state = .running →
        ∃ t, exec (.twinDetach h v) s = .next t ∧ t.twin.state = twDetaching ∧ underWay h 0x8012 0 17 [] t ∧ (t.part p).pauseReq.isSome = true ∧
          (t.part p).state = .running ∧ t.nodes = s.nodes)

/-- R277, R300, R332, R350, R604, R605, R607, R620 to R626: frames from the twin, in order, twice, ahead of their turn or forged, and what each type
does. -/
def Obligations.MirrorFrameResults : Prop :=
  ∀ (port : Nat) (f : Frame) (s : State),
    let k := f.stream.toNat
    let st := f.step.toNat
    let n := f.eseq.toNat
    let u := delivered f s
    let rows : List (Nat × Instr) := [(fAppend, .appendFrame port f), (fInput, .inputFrame port f), (fEnd, .endFrame port f), (fDurable, .durable port f),
      (fCommit, .commitFrame port f), (fFetch, .fetch port f), (fPage, .page port f), (fDigest, .digest port f), (fExchange, .exchange port f), (fMgmt, .spakanMgmt port f)]
    (∀ row ∈ rows, fromPeer row.1 port f s →
      let opens := ∀ p, partnerOf s (k / 256) = some p → (openFrame s p f).isSome = true
      (¬ opens → exec row.2 s = .next ((heard s).updSp port (fun q => { q with tagFails := satAdd q.tagFails 1 }))) ∧
      (opens → n < (s.stream k).expect ∨ (∃ g ∈ (s.stream k).held, g.eseq = f.eseq) → exec row.2 s = .next ((heard s).updSp port (fun q => { q with dupFrames := satAdd q.dupFrames 1 }))) ∧
      (opens → (s.stream k).expect < n → (∀ g ∈ (s.stream k).held, g.eseq ≠ f.eseq) → exec row.2 s = .next ((heard s).updStream k (fun x => { x with held := x.held ++ [f] }))) ∧
      (partnerOf s (k / 256) = none → (s.stream k).expect = n → (s.stream k).held = [] → (s.stream k).sinceAck < 63 → exec row.2 s = .next u)) ∧
    (∀ p d,
      (inOrder fInput port f p d s → exec (.inputFrame port f) s =
        .next { u with twin := { u.twin with inputs := s.twin.inputs ++ [⟨p, st, fld f.arg 7 0, fld f.arg 15 8, fld f.arg 31 16, d⟩] } }) ∧
      (inOrder fCommit port f p d s → (s.cfg p).faultModel ≠ 1 → ∀ l e b, (s.cfg p).lnodes = [l] → (s.ln l).sealedPages = [] → (s.ln l).bobbins = [(e, b)] → b.state ∈ [1, 3, 4] → b.codec ≠ 2 →
        ∃ t, exec (.commitFrame port f) s = .next t ∧ (t.part p).mir.committed = f.step ∧
          t.bobbin l e = { b with length := max b.length (if st % 2 = 0 then b.end0 else b.end1), end0 := if st % 2 = 0 then 0 else b.end0, end1 := if st % 2 = 0 then b.end1 else 0 } ∧
          (∀ i : MirrorInput, i ∈ t.twin.inputs ↔ i ∈ s.twin.inputs ∧ (i.part = p → st < i.step)) ∧ otherNodes (lNode l) s t ∧ ∀ q, q ≠ p → t.part q = s.part q) ∧
      (inOrder fAppend port f p d s → sessionAt s p (fld f.arg 31 0) = none → exec (.appendFrame port f) s = .next u) ∧
      (∀ l e, inOrder fAppend port f p d s → sessionAt s p (fld f.arg 31 0) = some (l, e) →
        let b := s.bobbin l e
        let plane := fld f.arg 47 32
        let first := fld f.arg 95 64
        let i := b.pageOf first plane
        let x := ple s l b i
        let fr := frameAddr l (pleFrame x)
        let off := first % 2 ^ b.tpp * b.tokenBytes
        s.lining.wf = true → b.state ≠ 3 → plane < b.planes → tokensFit b first d.length = true → i < b.listCap → d ≠ [] → (s.cfg (lnPart s l)).prot = false → pleValid x = true → pleLin x = true → pleEpoch x = 0 →
        pleAddr l b i + 16 ≤ fr ∨ fr + 65536 ≤ pleAddr l b i → ∃ t, exec (.appendFrame port f) s = .next t ∧
          (∀ j, j < d.length → t.lining.byte (fr + off + j) = d.getD j 0) ∧ pleDirty (ple t l b i) = true ∧ pleFrame (ple t l b i) = pleFrame x ∧
          t.bobbin l e = { b with lastStep := st
                                  end0 := if st % 2 = 0 then max b.end0 (first + d.length / b.tokenBytes) else b.end0
                                  end1 := if st % 2 = 0 then b.end1 else max b.end1 (first + d.length / b.tokenBytes) } ∧ t.parts = s.parts ∧ t.twin = u.twin) ∧
      (inOrder fEnd port f p d s → k % 256 ≠ 254 → s.twin.addr ≠ 0 → ∃ t g, exec (.endFrame port f) s = .next t ∧ t.nodes = s.nodes ∧
        (t.stream (256 * p + k % 256)).unacked = (s.stream (256 * p + k % 256)).unacked ++ [g] ∧ g.ty.toNat = fDurable ∧ g.step = f.step ∧ g.arg = BitVec.ofNat 128 k ∧
        (k % 256 = 255 → (k, st) ∈ (t.part p).mir.durable) ∧ (k % 256 ≠ 255 → t.parts = s.parts)) ∧
      ((s.part p).state ≠ .running →
        (inOrder fEnd port f p d s → k % 256 = 254 → ∃ t, exec (.endFrame port f) s = .next t ∧ t = { u with parts := t.parts } ∧ (exchangeStream p, st) ∈ (t.part p).mir.durable) ∧
        (inOrder fDurable port f p d s → ∃ t, exec (.durable port f) s = .next t ∧ t = { s with twin := t.twin, parts := t.parts } ∧ (fld f.arg 15 0, st) ∈ (t.part p).mir.durable ∧
          (t.stream (fld f.arg 15 0)).ends = (s.stream (fld f.arg 15 0)).ends.filter (fun e => e.1 != st) ∧ ∀ q, q ≠ p → t.part q = s.part q) ∧
        (inOrder fDigest port f p d s → exec (.digest port f) s =
          .next (u.updPart p (fun x => { x with mir := { x.mir with twinDigests := x.mir.twinDigests.filter (fun e => e.1 != st) ++ [(st, d)] } })))) ∧
      (inOrder fFetch port f p d s → sessionAt s p (fld f.arg 31 0) = none → exec (.fetch port f) s = .next u) ∧
      (∀ l e, inOrder fFetch port f p d s → sessionAt s p (fld f.arg 31 0) = some (l, e) →
        let b := s.bobbin l e
        let i := fld f.arg 63 32
        let x := ple s l b i
        (b.listCap ≤ i ∨ pleValid x = false → exec (.fetch port f) s = .next u) ∧
        (i < b.listCap → pleValid x = true → pleLin x = true → (s.cfg (lnPart s l)).prot = false → (s.cfg p).prot = false → s.twin.addr ≠ 0 →
          ∃ (t : State) (gs : List Frame), exec (.fetch port f) s = .next t ∧ onlyTwin s t ∧ (t.stream (lnStream p l)).unacked = (s.stream (lnStream p l)).unacked ++ gs ∧
            gs.length = 8 ∧ (∀ g ∈ gs, g.ty.toNat = fPage ∧ g.arg = pageArg b.session i ∧ g.data.length = 8192) ∧
            gs.flatMap (fun g => g.data) = linRead s none (frameAddr l (pleFrame x)) 65536)) ∧
      (inOrder fPage port f p d s →
        let buf := (if (s.stream k).pageArg = f.arg then (s.stream k).pageBuf else []) ++ d
        (buf.length < 65536 → exec (.page port f) s = .next (u.updStream k (fun x => { x with pageArg := f.arg, pageBuf := buf }))) ∧
        ∀ l e, buf.length = 65536 → sessionAt s p (fld f.arg 31 0) = some (l, e) →
          let b := s.bobbin l e
          let i := fld f.arg 63 32
          let x := ple s l b i
          let fr := frameAddr l (pleFrame x)
          s.lining.wf = true → i < b.listCap → pleValid x = true → pleLin x = true → (s.cfg (lnPart s l)).prot = false → (l, e, i) ∉ (s.part p).mir.restoring →
          pleAddr l b i + 16 ≤ fr ∨ fr + 65536 ≤ pleAddr l b i → ∃ t, exec (.page port f) s = .next t ∧ t.parts = s.parts ∧ otherNodes (lNode l) s t ∧
            (∀ j, j < 65536 → t.lining.byte (fr + j) = buf.getD j 0) ∧ pleFrame x ∉ (t.ln l).poison ∧ (t.stream k).pageBuf = [] ∧
            pleDirty (ple t l b i) = true ∧ pleFrame (ple t l b i) = pleFrame x) ∧
      (inOrder fExchange port f p d s →
        (st < (s.part p).next → exec (.exchange port f) s = .next u) ∧
        ((s.part p).next ≤ st → ∃ (t : State) (old : Memory), exec (.exchange port f) s = .next t ∧ t = { u with parts := t.parts } ∧ (∀ q, q ≠ p → t.part q = s.part q) ∧
          (t.part p).mir.exchange = (s.part p).mir.exchange.filter (fun e => e.1 != st) ++ [(st, Memory.write old (fld f.arg 63 0) d)] ∧
          ((∀ e ∈ (s.part p).mir.exchange, e.1 ≠ st) → old = []) ∧ ((∃ e ∈ (s.part p).mir.exchange, e.1 = st) → (st, old) ∈ (s.part p).mir.exchange))) ∧
      (inOrder fMgmt port f p d s → (s.cfg p).shadow = false ∨ Config.free s.free % 2 = 0 → exec (.spakanMgmt port f) s = .next { u with free := s.free + 1 }) ∧
      (inOrder fMgmt port f p d s → (s.cfg p).shadow = true → Config.free s.free % 2 = 1 → ∃ t, exec (.spakanMgmt port f) s = .next t ∧ (t.part p).mir.handed = true ∧
        (t.cfg p).shadow = false ∧ t.twin.state = twUnpaired ∧ t.twin.peer = none ∧ t.nodes = s.nodes ∧ (t.stream k).expect = n + 1))

/-- R600 to R602, R605, R606, R608 to R611, R619, R628: frames relayed to other modules, and links that train, fall silent and retrain. -/
def Obligations.SpakanResults : Prop :=
  ∀ (port : Nat) (s : State), port < 48 →
    let x := s.spPort port
    let only (g : SpPort → SpPort) (i : Instr) : Prop := exec i s = .next (s.updSp port g)
    (∀ f : Frame, s.pow.on = true → x.state = 2 →
      let out := Table.get 0xFF s.stw.d.active.relay (f.dst.toNat % 4096)
      let other := isLocal s f.dst = false ∧ (s.twin.addr ≠ 0 ∨ fromTwin s port f = true)
      (isLocal s f.dst = true → knownType f.ty.toNat = false → only (fun x => { x with badFrames := satAdd x.badFrames 1 }) (.relayForward port f)) ∧
      (isLocal s f.dst = false → s.twin.addr = 0 → fromTwin s port f = false → only (fun x => { x with relayDrops := satAdd x.relayDrops 1 }) (.relayForward port f)) ∧
      (other → f.hops.toNat ≤ 1 → only (fun x => { x with ttlDrops := satAdd x.ttlDrops 1 }) (.relayForward port f)) ∧
      (other → 1 < f.hops.toNat → 4096 ≤ f.dst.toNat ∨ 48 ≤ out → only (fun x => { x with relayDrops := satAdd x.relayDrops 1 }) (.relayForward port f)) ∧
      (other → 1 < f.hops.toNat → f.dst.toNat < 4096 → out < 48 → relayOpen s port out = false → only (fun x => { x with relayNopath := satAdd x.relayNopath 1 }) (.relayForward port f)) ∧
      (other → 1 < f.hops.toNat → f.dst.toNat < 4096 → out < 48 → relayOpen s port out = true →
        let g : Frame := { f with hops := f.hops - 1 }
        let y := s.spPort out
        (y.state ≠ 2 → exec (.relayForward port f) s = .next (s.updSp out (fun y => { y with queue := y.queue ++ [(2, g)] }))) ∧
        (y.state = 2 → y.queue = [] → ∃ t, exec (.relayForward port f) s = .next t ∧ onlyTwin s t ∧ t.twin = { s.twin with ports := t.twin.ports } ∧
          (t.spPort out) = { y with sent := y.sent ++ [(2, g)], flits := Table.put y.flits 2 (satAdd (Table.get 0 y.flits 2) (1 + flitsOf f.data.length)) } ∧
          ∀ q, q ≠ out → t.spPort q = s.spPort q))) ∧
    (∀ q rest, x.queue = q :: rest → only (fun x => { x with queue := rest, relayExpired := satAdd x.relayExpired 1 }) (.relayExpiry port)) ∧
    (∀ (lanes polarity : Byte) (permuted light isSpakan : Bool), s.pow.on = true → x.state ≠ 2 →
      let run := Instr.spakanLinkTraining port lanes polarity permuted light isSpakan
      let four := lanes.toNat % 16 = 0 ∨ lanes.toNat / 16 = 0
      (light = false → only (fun x => { x with state := 0, width := 0, lastEvent := 4, lanesFailed := lanes.toNat }) run) ∧
      (light = true → isSpakan = false → only (fun x => { x with state := 0, width := 0, lastEvent := 6, lanesFailed := lanes.toNat }) run) ∧
      (light = true → isSpakan = true → ¬ four → ∃ t, exec run s = .next t ∧ onlyTwin s t ∧ (t.spPort port).state = 0 ∧ (t.spPort port).width = 0 ∧
        (t.spPort port).lanesFailed = lanes.toNat ∧ ∀ q, q ≠ port → t.spPort q = s.spPort q) ∧
      (light = true → isSpakan = true → four → ∃ t, exec run s = .next t ∧ onlyTwin s t ∧
        (let y := t.spPort port
         y.state = 2 ∧ y.width = (if lanes = 0 then 2 else 1) ∧ y.lanesFailed = lanes.toNat ∧ y.polarity = polarity.toNat ∧ y.orderFixed = permuted ∧ y.queue = [] ∧
         y.lastEvent = if lanes ≠ 0 then 3 else if permuted then 2 else if polarity ≠ 0 then 1 else x.lastEvent) ∧
        (port ∉ twinPorts → (t.spPort port).sent = x.sent ++ x.queue) ∧
        (port ∈ twinPorts → s.twin.state = twPairing → s.twin.record ≠ [] → s.twin.addr ≠ 0 →
          ∃ g, (t.spPort port).sent.getLast? = some (1, g) ∧ g.ty.toNat = fHello ∧ g.data = helloBytes (ownHello s)))) ∧
    (x.state = 2 → ∃ t, exec (.spakanLinkIdleTimeout port) s = .next t ∧ onlyTwin s t ∧ (t.spPort port).state = 0 ∧ (t.spPort port).width = 0 ∧
      t.twin = { s.twin with ports := t.twin.ports } ∧ (port ∉ twinPorts → ∀ q, q ≠ port → t.spPort q = s.spPort q) ∧
      (∀ st g, port ∈ twinPorts → (∃ y, Table.find? s.twin.streams st = some y) → g ∈ (s.stream st).unacked →
        ∀ k, pinned t st = some k → (1, g) ∈ (t.spPort k).sent)) ∧
    (s.pow.on = true → x.state = 0 → only (fun x => { x with state := 1 }) (.spakanRetrain port))

/-- R458, R523, R597, R629 to R637, R641, R650, R660 to R666: power enable, connectors, branches, the reference clock, the service signals and the
selvage loop. -/
def Obligations.SupplyResults : Prop :=
  ∀ (s : State),
    let w := s.pow
    (∀ conn, conn < 2 →
      let up : State := { s with pow := if conn = 0 then { w with enJ1 := true } else { w with enJ2 := true } }
      let down : State := { s with pow := if conn = 0 then { w with enJ1 := false } else { w with enJ2 := false } }
      (w.on = true ∨ liveCount s < 2 → exec (.pwrEnAssert conn) s = .next up) ∧
      (w.on = false → 2 ≤ liveCount s → exec (.pwrEnAssert conn) s = .next { up with clock := 0, pow := { up.pow with on := true }, brg := { s.brg with phase := 1 } }) ∧
      (w.on = false ∨ (if conn = 0 then w.enJ2 else w.enJ1) = true → exec (.pwrEnDeassert conn) s = .next down) ∧
      (w.on = true → (if conn = 0 then w.enJ2 else w.enJ1) = false → ∃ t, exec (.pwrEnDeassert conn) s = .next t ∧ t.pow.on = false ∧ t.pow.enJ1 = false ∧ t.pow.enJ2 = false ∧
        t.nodes = [] ∧ t.routers = [] ∧ t.flight = [] ∧ t.lining = [] ∧ t.bolt = [] ∧ t.parts = [] ∧ t.panels = [] ∧ t.io = {} ∧ t.brg.phase = 0 ∧
        t.hemA.bank0 = s.hemA.bank0 ∧ t.hemA.bank1 = s.hemA.bank1 ∧ t.hemA.sealBreaks = s.hemA.sealBreaks ∧ t.hemB.bank0 = s.hemB.bank0 ∧ t.hemB.bank1 = s.hemB.bank1 ∧
        t.hemB.sealBreaks = s.hemB.sealBreaks ∧ t.brg.stored = s.brg.stored ∧ t.brg.mark = s.brg.mark ∧ t.brg.grade = s.brg.grade ∧ t.pow.live = w.live ∧ t.hostMem = s.hostMem) ∧
      (w.on = true → exec (.tackPress conn) s = .next (s.updDict (fun d => { d with tackUntil := s.clock + 120 * 1000 * msCycles 1 })) ∧
        ∃ t, exec (.tackHeld conn) s = .next t ∧ records 0x10 0 s t)) ∧
    (w.on = true → w.enJ1 ≠ w.enJ2 → ∃ t, exec .pwrEnMismatch s = .next t ∧ records 0x0F 0 s t) ∧
    (∀ c, c < 4 →
      let rows : List (Instr × Nat) := [(.connectorReversed c, 3), (.connectorOvervoltage c, 4), (.connectorUndervoltage c, 5)]
      let cut : State := { s with pow := { w with live := w.live.set c false } }
      let back : State := { s with pow := { w with live := w.live.set c true } }
      (∀ row ∈ rows,
        (w.on = false → exec row.1 s = .next cut) ∧
        (w.on = true → w.live.getD c false = true → 2 ≤ liveCount cut → ∃ t, exec row.1 s = .next t ∧ t.pow.on = true ∧ t.pow.live = w.live.set c false ∧
          (⟨row.2, c + 1, s.clock⟩ : PowerEvent) ∈ t.pow.events ∧
          (w.live.getD (if c % 2 = 0 then c + 1 else c - 1) false = false → (⟨c / 2 + 1, 0, s.clock⟩ : PowerEvent) ∈ t.pow.events) ∧
          (limitActive cut < limitActive s → alarmed s t) ∧ (limitActive s ≤ limitActive cut → t = { cut with pow := { cut.pow with events := t.pow.events } })) ∧
        (w.on = true → w.live.getD c false = true → liveCount cut < 2 → ∃ t, exec row.1 s = .next t ∧ t.pow.on = false ∧ t.pow.live = w.live.set c false ∧ t.nodes = [] ∧
          t.parts = [] ∧ t.lining = [])) ∧
      (w.on = true ∨ (w.enJ1 = false ∧ w.enJ2 = false) ∨ liveCount back < 2 → exec (.connectorRequalified c) s = .next back) ∧
      (w.on = false → w.enJ1 = true ∨ w.enJ2 = true → 2 ≤ liveCount back → exec (.connectorRequalified c) s =
        .next { back with clock := 0, pow := { back.pow with on := true }, brg := { s.brg with phase := 1 } }) ∧
      (∀ shorted, w.on = true → ∃ t, exec (.sensePairFault c shorted) s = .next t ∧ records (if shorted then 8 else 7) (c + 1) { s with pow := { w with senseFallback := true } } t)) ∧
    (∀ k, k < 42 → w.on = true → Branch.panel k ∉ w.fuses → (s.panel k).state ≠ 4 → ∃ t, exec (.branchFuseOpen (.panel k)) s = .next t ∧
      t.pow.fuses = w.fuses ++ [.panel k] ∧ (∃ e ∈ t.pow.events, e = ⟨6, k, s.clock⟩) ∧ (t.panel k).state = 4 ∧
      ∀ n ∈ panelNodes k, (t.node n).fenced = true ∧ (t.node n).core.run = false ∧ (t.node n).mc.run = false ∧ (t.router n).dead = true) ∧
    (∀ h, h < 26 → hemKind h ≠ .blank → w.on = true → Branch.hem h ∉ w.fuses → ∃ t, exec (.branchFuseOpen (.hem h)) s = .next t ∧
      t.pow.fuses = w.fuses ++ [.hem h] ∧ (∃ e ∈ t.pow.events, e = ⟨6, 64 + h, s.clock⟩) ∧
      (∀ j, j < 8 → ((t.router (hemRouter h j).1).port (hemRouter h j).2).state ≠ 1) ∧ (h = 3 → t.hemA.dead = true) ∧ (h = 10 → t.hemB.dead = true) ∧
      ∀ p, p < 48 → (spakanHem p).1 = h → hemKind h = .spakan → (t.spPort p).state = 0) ∧
    (w.on = true → w.refclk = true → ∃ t, exec .refclockLost s = .next t ∧ t.pow.refclk = false ∧ (∃ e ∈ t.pow.events, e = ⟨0x0A, 0, s.clock⟩) ∧
      t.stw.f.stored = s.stw.f.gen ∧ t.stw.f.dirty = false ∧ t.brg.stored.isSome = true ∧ (∀ x, t.brg.stored = some x → x.map = s.stw.f.map) ∧ t.pow.trayCycle = true ∧
      t.nodes = s.nodes ∧ t.parts = s.parts) ∧
    (exec .tackWindowExpiry s = .next (s.updDict (fun d => { d with tackUntil := 0 }))) ∧
    (∀ fitted, exec (.serviceJumper fitted) s = .next (s.updDict (fun d => { d with jumper := fitted }))) ∧
    (∀ ohms toGround, w.on = true → ∃ t, exec (.selvageMeasure ohms toGround) s = .next t ∧ t = { s with sec := { s.sec with loopOpen := t.sec.loopOpen } } ∧
      (toGround = true ∨ 1000 < ohms → t.sec.loopOpen = true) ∧ (toGround = false → ohms < 100 → t.sec.loopOpen = false) ∧
      (toGround = false → 100 ≤ ohms → ohms ≤ 1000 → t.sec.loopOpen = s.sec.loopOpen)) ∧
    (w.on = true → s.sec.loopOpen = true → ∃ t, exec .selvageBreak s = .next t ∧ t = { s with hemA := t.hemA, hemB := t.hemB } ∧
      ∀ x ∈ ([(s.hemA, t.hemA), (s.hemB, t.hemB)] : List (HostHem × HostHem)), x.2 = if x.1.blown = false ∧ x.1.dead = false ∧ x.1.sealBreaks < 32 then
        { x.1 with sealBreaks := x.1.sealBreaks + 1, blown := true } else x.1)

/-- R388, R389, R435, R530, R632, R638 to R640, R644 to R657: the limiter and the alarm, the thermal loop, voltage, coolant, panels parked, dark and
back,
and a Bolt package that has failed. -/
def Obligations.HeatResults : Prop :=
  ∀ (s : State),
    let w := s.pow
    let limit := limitActive s
    (∀ avg, w.on = true → (110 * limit < 100 * avg → ∃ t, exec (.inputPowerOverload avg) s = .next t ∧ alarmed s t) ∧
      (100 * avg ≤ 110 * limit → exec (.inputPowerOverload avg) s = .next s)) ∧
    (∀ inlet : Int, w.on = true →
      let hot : State := { s with pow := { w with inlet := inlet } }
      (limitActive hot < limit → ∃ t, exec (.coolantInletHigh inlet) s = .next t ∧ t.pow.inlet = inlet ∧ alarmed s t ∧ ∃ e ∈ t.pow.events, e = ⟨0x0C, 0, s.clock⟩) ∧
      (limit ≤ limitActive hot → 3500 < inlet → ∃ t, exec (.coolantInletHigh inlet) s = .next t ∧ records 0x0C 0 hot t) ∧
      (limit ≤ limitActive hot → inlet ≤ 3500 → exec (.coolantInletHigh inlet) s = .next hot)) ∧
    (∀ (h : ReqHdr) (v : U32), mayAct h 0xA000 0 s →
      let set' : State := { s with pow := { w with limit := some v.toNat } }
      (v.toNat < 3000 ∨ gradeEnvelope s.brg.grade < v.toNat → ∃ t, exec (.powerLimit h v) s = .next t ∧ turnedAway h 0xA000 0 0x02000001 s t) ∧
      (3000 ≤ v.toNat → v.toNat ≤ gradeEnvelope s.brg.grade → ∃ t, exec (.powerLimit h v) s = .next t ∧ acted h 0xA000 0 [] t ∧ t.pow.limit = some v.toNat ∧
        (limitActive set' < limit → alarmed s t) ∧ (limit ≤ limitActive set' → answersOnly set' t))) ∧
    (∀ (input : Nat) (branch : List (Nat × Nat)), (∀ b ∈ branch, b.1 < 42) → w.on = true → stewardActs s = true → (∀ k, k < 42 → (s.panel k).alarmCap = false) →
      let same (t : State) (k : Nat) := t.panel k = { s.panel k with power := (t.panel k).power }
      (input ≤ limit → 95 * limit < 100 * input → ∃ t, exec (.limiterRun input branch) s = .next t ∧ t = { s with panels := t.panels, pow := t.pow } ∧ (∀ k, same t k) ∧
        t.pow = { w with input := input, alarm := false, lowSince := none }) ∧
      (100 * input ≤ 95 * limit → ∃ t, exec (.limiterRun input branch) s = .next t ∧ t = { s with panels := t.panels, pow := t.pow } ∧
        t.pow = { w with input := input, alarm := false, lowSince := some (w.lowSince.getD s.clock) } ∧ (s.clock < w.lowSince.getD s.clock + 10 * msCycles 1 → ∀ k, same t k) ∧
        ∃ l : List Nat, l.length ≤ 4 ∧ ∀ k, (k ∉ l → same t k) ∧ (k ∈ l → (s.panel k).state < 2 ∧ (s.panel k).cap ≠ 4 ∧ (t.panel k).cap = easeReq s (s.panel k).cap)) ∧
      (limit < input → ∃ t, exec (.limiterRun input branch) s = .next t ∧ t = { s with panels := t.panels, pow := t.pow } ∧
        t.pow = { w with input := input, lowSince := none } ∧ ∃ l : List Nat, l.length ≤ 4 ∧
          (∀ k, (k ∉ l → same t k) ∧ (k ∈ l → (s.panel k).state < 2 ∧ (s.panel k).core < 8 ∧ (t.panel k).cap = max (s.panel k).cap (slowerDiv (s.panel k).core))) ∧
          ∀ j, j < 42 → (s.panel j).state < 2 → (s.panel j).core < 8 → ∃ k ∈ l, (s.panel k).core ≤ (s.panel j).core)) ∧
    (∀ k, k < 42 →
      let x := s.panel k
      (stewardActs s = false → w.alarm = false → x.alarmCap = true → ∃ t, exec (.handoverAlarmCapLift k) s = .next t ∧ t = { s with panels := t.panels } ∧
        (t.panel k).cap = easeReq s x.cap ∧ ((t.panel k).alarmCap = true ↔ easeReq s x.cap ≠ 4) ∧ (∀ q, q ≠ k → t.panel q = s.panel q) ∧
        (x.state < 2 → (t.panel k).core = max (gradeDivider s.brg.grade) (max x.thermal (easeReq s x.cap)))) ∧
      (w.on = true → x.state < 3 → ∀ slack, ∃ t, exec (.voltageLoop k slack) s = .next t ∧ t = { s with panels := t.panels } ∧ (∀ q, q ≠ k → t.panel q = s.panel q) ∧
        t.panel k = { x with volt := max (voltRange x.core).1 (min (voltRange x.core).2 (if slack < 2 then x.volt + 5 else if slack ≤ 4 then x.volt else x.volt - 5)) }) ∧
      (w.on = true → x.state < 2 → panelIdle s k → (∃ t, exec (.thermalComparatorPark k) s = .next t ∧ parkedAt k s t) ∧
        (∀ (logic dram : Int), logic < 11000 → 10500 ≤ logic ∨ 10000 ≤ dram → ∃ t, exec (.thermalSensorRead k logic dram) s = .next t ∧ parkedAt k s t ∧
          (t.panel k).refresh = (if dram ≤ 8500 then 1 else if dram ≤ 9500 then 2 else 4) ∧ (t.panel k).tempLogic = logic ∧ (t.panel k).tempDram = dram)) ∧
      (∀ (logic dram : Int), w.on = true → x.state < 2 → dram < 10000 →
        (9500 ≤ logic → logic < 10000 → x.hotStep = none → x.core < 8 → ∃ t, exec (.thermalSensorRead k logic dram) s = .next t ∧ t = { s with panels := t.panels } ∧
          (∀ q, q ≠ k → t.panel q = s.panel q) ∧ (t.panel k).thermal = slowerDiv x.core ∧ (t.panel k).state = 1 ∧ (t.panel k).hotStep = some s.clock ∧
          (t.panel k).core = max (gradeDivider s.brg.grade) (max (slowerDiv x.core) x.cap)) ∧
        (9000 < logic → logic < 9500 → exec (.thermalSensorRead k logic dram) s = .next (s.updPanel k (fun x => { x with
          tempLogic := logic, tempDram := dram, refresh := if dram ≤ 8500 then 1 else if dram ≤ 9500 then 2 else 4, hotPark := none, coolSince := none }))) ∧
        (∀ since, logic ≤ 9000 → x.coolSince = some since → since + 10 * msCycles 1 ≤ s.clock → x.deep = false → x.thermal ≠ 4 →
          ∃ t, exec (.thermalSensorRead k logic dram) s = .next t ∧ t = { s with panels := t.panels } ∧ (∀ q, q ≠ k → t.panel q = s.panel q) ∧
            (t.panel k).thermal = easeReq s x.thermal ∧ (t.panel k).core = max (gradeDivider s.brg.grade) (max (easeReq s x.thermal) x.cap))) ∧
      (∀ (logic dram : Int) (since : Nat), w.on = true → x.state = 2 → logic ≤ 9000 → dram < 10000 → x.request < 2 → x.coolSince = some since → since + 100 * msCycles 1 ≤ s.clock →
        ∃ t, exec (.thermalSensorRead k logic dram) s = .next t ∧ (t.panel k).state = 1 ∧ (t.panel k).core = max (gradeDivider s.brg.grade) (max 8 x.cap) ∧
          ∀ n ∈ panelNodes k, kindOf n ≠ .c → (t.node n).parked = s.stw.d.active.transit) ∧
      (∀ (logic dram : Int), w.on = true → x.state < 3 → 11000 ≤ logic → Branch.panel k ∉ w.fuses → ∃ t, exec (.thermalSensorRead k logic dram) s = .next t ∧
        (t.panel k).state = 4 ∧ t.pow.fuses = w.fuses ++ [.panel k] ∧ ∃ e ∈ t.pow.events, e = ⟨0x0D, k, s.clock⟩) ∧
      (∀ (h : ReqHdr) (v : Byte), mayAct h 0xA011 (k + 1) s →
        (v ∉ ([0, 2, 3] : List Byte) → ∃ t, exec (.panelRequest h k v) s = .next t ∧ turnedAway h 0xA011 (k + 1) 0x02000001 s t) ∧
        (v = 0 → x.state ≠ 3 → ∃ t, exec (.panelRequest h k v) s = .next t ∧ acted h 0xA011 (k + 1) [] t ∧ answersOnly (s.updPanel k (fun x => { x with request := 0, darkReason := 0 })) t) ∧
        (v = 2 → x.state < 2 → panelIdle s k → ∃ t, exec (.panelRequest h k v) s = .next t ∧ acted h 0xA011 (k + 1) [] t ∧ parkedAt k s t ∧ (t.panel k).request = 2) ∧
        (v = 3 → x.state = 2 → darkReason s k ≠ 0 → ∃ t, exec (.panelRequest h k v) s = .next t ∧ acted h 0xA011 (k + 1) [] t ∧
          answersOnly (s.updPanel k (fun x => { x with request := 3, darkReason := darkReason s k })) t) ∧
        (v = 3 → x.state = 2 → darkReason s k = 0 → ∃ t, exec (.panelRequest h k v) s = .next t ∧ acted h 0xA011 (k + 1) [] t ∧ (t.panel k).state = 3 ∧
          (t.panel k).volt = 0 ∧ (∀ n ∈ panelNodes k, (t.node n).pad.bytes = [] ∧ (t.node n).core = {} ∧ ∀ p, p < 4 → ((t.router n).port p).state = 0) ∧
          ∀ n ∈ panelNodes k, isL n = true → ∀ a, a < 0x200000000 → t.lining.byte (linBase (lIndex n) + a) = 0))) ∧
    (∀ package, package < 128 → package ∉ s.stw.f.boltLost → ∃ t, exec (.boltPackageFailed package) s = .next t ∧ package ∈ t.stw.f.boltLost ∧
      (∀ p, p ≠ package → (p ∈ t.stw.f.boltLost ↔ p ∈ s.stw.f.boltLost)) ∧ (∃ e, t.stw.f.log.getLast? = some e ∧ e.kind = 16 ∧ e.port = 1) ∧
      t.brg.short = gradeShort t ∧ t.nodes = s.nodes ∧ t.parts = s.parts)

/-- R464 to R468, R470 to R472, R476, R485, R492, R493, R596, R641: bring-up to the booted stewards, and the test window. -/
def Obligations.BootResults : Prop :=
  ∀ (s : State),
    (standsIn 1 s → ∀ bad : List Nat, (∀ k ∈ bad, k < 42) →
      (∃ t, exec (.bringupPhase1 false bad) s = .next t ∧ records 9 0 s t) ∧
      ∃ t, exec (.bringupPhase1 true bad) s = .next t ∧ t.pow.refclk = true ∧ t.brg.phase = 2 ∧
        (∀ k, k < 42 → (t.panel k).state = if k ∈ bad then 4 else 0) ∧
        (bad = [] → t.nodes = s.nodes ∧ t.routers = s.routers ∧ ∀ k, k < 42 → (t.panel k).core = gradeDivider s.brg.grade ∧ (t.panel k).fabric = 8) ∧
        ∀ k ∈ bad, ∀ n ∈ panelNodes k, (t.node n).fenced = true ∧ (t.router n).dead = true) ∧
    (standsIn 2 s → ∀ bad : List (NodeId × Nat), (∀ e ∈ bad, isLink e.1 e.2) → ∃ t, exec (.bringupPhase2 bad) s = .next t ∧ t = { s with routers := t.routers, brg := t.brg } ∧
      t.brg.phase = 3 ∧ t.brg.badLinks = s.brg.badLinks ++ bad ∧
      (∀ e ∈ bad, ∀ x ∈ linkEnds e.1 e.2, ((t.router x.1).port x.2).linkHeld = true ∧ ((t.router x.1).port x.2).state = 0) ∧
      (∀ n p, nodeExists n = true → p < 4 → portLeads n p = false → ((t.router n).port p).state = 2) ∧
      ∀ n p, isLink n p → (∀ e ∈ bad, (n, p) ∉ linkEnds e.1 e.2) → (∀ x ∈ linkEnds n p, (s.router x.1).dead = false) →
        (t.router n).port p = freshPort ((s.router n).port p)) ∧
    (standsIn 3 s → s.hemA.dead = false → s.hemB.dead = false → (s.panel (panelOf stewardNode)).state ≠ 4 → (s.panel (panelOf standbyNode)).state ≠ 4 →
      ∀ (a b : BootRead) (same : Bool),
        let good (h : HostHem) (r : BootRead) : Prop := r.romOk = true ∧ h.active ≠ 1 ∧ r.bank0 = ⟨true, true, true⟩ ∧ h.arb ≤ bankSvn h.bank0
        (good s.hemA a → good s.hemB b → ∃ t, exec (.bringupPhase3 a b same) s = .next t ∧ t.brg.phase = 4 ∧ t.stw.stewardLost = false ∧ t.stw.standbyLost = false ∧
          t.stw.standbyActs = false ∧ t.sec.fwSteward = sized 48 (bankDigest s.hemA.bank0) ∧ t.sec.fwStandby = sized 48 (bankDigest s.hemA.bank0) ∧
          t.sec.svnSteward = bankSvn s.hemA.bank0 ∧ t.brg.mark = true ∧ (t.brg.mismatch = true ↔ same = false ∨ s.hemA.bank0 ≠ s.hemB.bank0) ∧
          t.hemA.bootCode = none ∧ t.hemB.bootCode = none ∧
          (t.brg.full = true ↔ s.brg.mode = 0 ∨ s.brg.stored = none ∨ s.brg.mark = true ∨ 31 ≤ s.brg.fastSince ∨ sized 48 (bankDigest s.hemA.bank0) ≠ s.brg.lastFw) ∧ t.nodes = s.nodes) ∧
        (a.romOk = false → good s.hemB b → ∃ t, exec (.bringupPhase3 a b same) s = .next t ∧ t.brg.phase = 4 ∧ t.stw.stewardLost = true ∧ t.stw.standbyActs = true ∧
          t.stw.standbyLost = false ∧ t.hemA.bootCode = some 4 ∧ t.sec.fwSteward = s.sec.fwSteward ∧ t.sec.fwStandby = sized 48 (bankDigest s.hemB.bank0)) ∧
        (a.romOk = false → b.romOk = false → ∃ t, exec (.bringupPhase3 a b same) s = .next t ∧ t.brg.phase = 3 ∧ t.hemA.bootCode = some 4 ∧ t.hemB.bootCode = some 4 ∧
          t.stw = s.stw ∧ t.nodes = s.nodes)) ∧
    (standsIn 4 s → ∀ bad : List NodeId, (∀ n ∈ bad, nodeExists n = true) → ∃ t, exec (.bringupPhase4 bad) s = .next t ∧ t.brg.phase = 5 ∧ t.stw.mstate = .test ∧
      failsNow (fun n => n ∈ bad ∧ kindOf n = .c) 0x27 s t ∧ (s.brg.stored = none → ∀ n, n ∉ bad → t.node n = s.node n)) ∧
    (∀ k, k < 42 → (outsideWindow (s.panel k) = true → exec (.testWindowResume k) s = .next s) ∧
      (outsideWindow (s.panel k) = false → exec (.testWindowResume k) s = .next (s.updPanel k (fun x => { x with testWait := false })))) ∧
    (∀ n x, (n, x) ∈ ([(5, .bringupPhase5 [] [] [] []), (6, .bringupPhase6 []), (7, .bringupPhase7 [] []), (8, .bringupPhase8 [] [] []), (9, .bringupPhase9 [] [])] : List (Nat × Instr)) →
      standsIn n s → ∀ k, k < 42 → outsideWindow (s.panel k) = true → ∃ t, exec x s = .next t ∧ t = { s with panels := t.panels } ∧ (t.panel k).testWait = true)

/-- R245, R413, R464, R465, R473 to R489, R490 to R493: the tests of bring-up, the fault map they build, and what comes into service. -/
def Obligations.BringupResults : Prop :=
  ∀ (s : State),
    (testsIn 5 s → ∀ (routers badC : List NodeId) (links : List (NodeId × Nat)) (offsets : List Int),
      (∀ n ∈ routers, nodeExists n = true) → (∀ n ∈ badC, nodeExists n = true) → (∀ e ∈ links, isLink e.1 e.2) → ∃ t, exec (.bringupPhase5 routers links badC offsets) s = .next t ∧
        t.brg.phase = 6 ∧ (∀ n ∈ routers, underTest s n = true → hasFailed t n = true ∧ (t.router n).dead = true ∧ (t.node n).fenced = true) ∧
        (∀ n ∈ badC, underTest s n = true → kindOf n = .c → hasFailed t n = true ∧ (t.node n).fenced = true) ∧
        (∀ k i, k < 42 → offsets[k]? = some i → (t.panel k).offset = i) ∧
        (routers = [] → badC = [] → (∀ k, k < 42 → ∃ n ∈ panelNodes k, kindOf n = .c ∧ hasFailed s n = false) →
          t.nodes = s.nodes ∧ t.brg.fails = s.brg.fails ∧ (∀ e ∈ links, (∀ x ∈ linkEnds e.1 e.2, (s.router x.1).dead = false) →
            ∀ x ∈ linkEnds e.1 e.2, ((t.router x.1).port x.2).linkHeld = true ∧ ((t.router x.1).port x.2).state = 0) ∧
          reported 3 (testedNow s [.m, .v, .f, .l, .c]) t ∧ reported 4 (testedNow s [.c]) t)) ∧
    (testsIn 6 s → ∀ bad : List NodeId, (∀ n ∈ bad, nodeExists n = true) → ∃ t, exec (.bringupPhase6 bad) s = .next t ∧ t.brg.phase = 7 ∧
      failsNow (fun n => n ∈ bad ∧ kindOf n ≠ .c) 0x27 s t ∧ (∀ n, n ∉ bad → t.node n = s.node n) ∧ reported 2 (testedNow s [.m, .v, .f, .l, .c]) t) ∧
    (testsIn 7 s → ∀ (votes : List (NodeId × NodeId × Bool)) (direct : List (NodeId × Bool)), (∀ e ∈ votes, nodeExists e.1 = true ∧ nodeExists e.2.1 = true) →
      (∀ e ∈ direct, nodeExists e.1 = true) → ∃ t, exec (.bringupPhase7 votes direct) s = .next t ∧ t.brg.phase = 8 ∧
        let v := validVotes s votes
        let ns := allNodes.filter (fun n => isCompute (kindOf n) && underTest s n)
        let m0 := markVotes v ns []
        let m1 := markVotes v ns m0
        let m2 := markVotes v ns m1
        let m3 := markVotes v ns m2
        let m4 := markVotes v ns m3
        let marked := if m1 = m0 then m0 else if m2 = m1 then m1 else if m3 = m2 then m2 else if m4 = m3 then m3 else m4
        let count (n : NodeId) (pass : Bool) := (v.filter (fun e => e.2.1 == n && e.2.2 == pass && !marked.contains e.1)).length
        failsNow (fun n => isCompute (kindOf n) = true ∧ (count n true < count n false ∨ (count n true = count n false ∧ (n, false) ∈ direct))) 0x28 s t ∧
          reported 5 ns.length t) ∧
    (testsIn 8 s → ∀ n rows cols, nodeExists n = true → kindOf n = .m → underTest s n = true → (∀ k ∈ rows, k < 520) → (∀ k ∈ cols, k < 520) →
      let x := (s.node n).mc
      let run (missed : List NodeId) := Instr.bringupPhase8 [(n, rows)] [(n, cols)] missed
      (∀ r c, retireLanes rows (some (x.rowRep, x.badRows)) = some r → retireLanes cols (some (x.colRep, x.badCols)) = some c →
        (∃ t, exec (run []) s = .next t ∧ t.brg.phase = 9 ∧ t.brg.fails = s.brg.fails ∧ (t.node n).mc = { x with rowRep := r.1, badRows := r.2, colRep := c.1, badCols := c.2 } ∧
          (t.node n).fenced = (s.node n).fenced ∧ ∀ m, kindOf m ≠ .m → t.node m = s.node m) ∧
        ∃ t, exec (run [n]) s = .next t ∧ t.brg.phase = 9 ∧ failsNow (fun m => m = n) 0x29 s t) ∧
      (retireLanes rows (some (x.rowRep, x.badRows)) = none ∨ retireLanes cols (some (x.colRep, x.badCols)) = none →
        ∃ t, exec (run []) s = .next t ∧ t.brg.phase = 9 ∧ failsNow (fun m => m = n) 0x29 s t)) ∧
    (testsIn 9 s → ∀ n bank row, nodeExists n = true → bank < padBytes n / 0x100000 → row < 1024 → underTest s n = true → (bank, row) ∉ (s.node n).pad.retired →
      (spareRowsLeft (s.node n).pad bank ≠ 0 → ∃ t, exec (.bringupPhase9 [(n, bank, row)] []) s = .next t ∧ t.brg.phase = 10 ∧ t.brg.fails = s.brg.fails ∧
        otherNodes n s t ∧ (t.node n).pad.retired = (s.node n).pad.retired ++ [(bank, row)]) ∧
      (spareRowsLeft (s.node n).pad bank = 0 → ∃ t, exec (.bringupPhase9 [(n, bank, row)] []) s = .next t ∧ t.brg.phase = 10 ∧ failsNow (fun m => m = n) 0x17 s t)) ∧
    (testsIn 9 s → ∀ bad : List NodeId, (∀ n ∈ bad, nodeExists n = true) → ∃ t, exec (.bringupPhase9 [] bad) s = .next t ∧ t.brg.phase = 10 ∧
      failsNow (fun n => n ∈ bad ∧ kindOf n = .l) 0x23 s t ∧ reported 8 (testedNow s [.l]) t) ∧
    (standsIn 10 s → ∀ (rows : List (NodeId × Nat)) (bad : List NodeId) (packages : List Nat), (∀ e ∈ rows, nodeExists e.1 = true) → (∀ n ∈ bad, nodeExists n = true) →
      (∀ p ∈ packages, p < 128) → ∃ t, exec (.bringupPhase10 rows bad packages) s = .next t ∧ t.brg.phase = 11 ∧ t.stw.mstate = .fitting ∧ t.lining = [] ∧ t.bolt = [] ∧ t.boltMeta = [] ∧
        (∀ p ∈ packages, p ∈ t.stw.f.boltLost) ∧ (∀ n, nodeExists n = true → (t.node n).ln.poison = [] ∧ (t.node n).ins = [] ∧ (t.node n).outs = [] ∧ (t.node n).fault = 0) ∧
        (rows = [] → failsNow (fun n => n ∈ bad ∧ kindOf n = .l) 0x2A s t) ∧
        (∀ n row, rows = [(n, row)] → bad = [] → isL n = true → underTest s n = true → row ∉ (s.node n).ln.spareRows →
          let used := ((s.node n).ln.spareRows.filter (fun k => k % 64 == row % 64)).length
          (used < 32 → t.brg.fails = s.brg.fails ∧ (t.node n).ln.spareRows = (s.node n).ln.spareRows ++ [row]) ∧ (32 ≤ used → failsNow (fun m => m = n) 0x2A s t))) ∧
    (standsIn 11 s → ∀ valid, ∃ t, exec (.bringupPhase11 valid) s = .next t ∧ t.brg.phase = 12 ∧ t.stw.f.gen = 1 ∧ t.brg.short = gradeShort t ∧
      (valid = false ∨ s.brg.stored = none → t.brg.diff = 0xFFFFFFFF) ∧
      ∀ n, nodeExists n = true → ((t.node n).fenced = true ↔ (t.entry n).state ≠ 0) ∧
        ((s.panel (panelOf n)).state = 4 → (t.entry n).state = 3 ∧ (t.entry n).router = 2) ∧
        (∀ code, (s.panel (panelOf n)).state ≠ 4 → s.brg.fails.find? (fun e => e.1 == n) = some (n, code) → (t.entry n).state = 2 ∧ (t.entry n).code = code ∧ (t.entry n).faults = 1) ∧
        ((s.panel (panelOf n)).state ≠ 4 → hasFailed s n = false → (valid = false ∨ s.brg.stored = none) → (t.entry n).state = 0 ∧ (t.entry n).code = 0 ∧ (t.entry n).faults = 0)) ∧
    (standsIn 12 s → ∀ ms, ms < 2 ^ 32 → ∃ t, exec (.bringupPhase12 ms) s = .next t ∧ t.brg.phase = 0x0D ∧ t.brg.mark = false ∧ t.brg.timeMs = ms ∧ t.stw.f.dirty = false ∧
      t.stw.f.stored = t.stw.f.gen ∧ t.stw.mstate = (if s.brg.short = 0 then .ready else if s.brg.accept then .degraded else .safe) ∧
      t.brg.fastSince = (if s.brg.full then 0 else min 31 (s.brg.fastSince + 1)) ∧ t.brg.lastFw = fwRunning s ∧ (∃ r, t.brg.stored = some r ∧ r.map = s.stw.f.map) ∧
      (∀ c, s.brg.config = some c → s.brg.short = 0 → t.stw.d.active = c ∧ t.stw.d.shadow = c) ∧
      (∀ k ∈ s.brg.wardenLost, (t.panel k).state = 3))

/-- Logs 8 and 10: a step runs the command at the front of the queue with the queue's rest, and with nothing waiting a cycle passes. -/
def Obligations.StepRunsFrontCommand : Prop :=
  ∀ (s : State), (∀ c cs, s.pending = c :: cs → step s = exec c { s with pending := cs }) ∧
    (s.pending = [] → step s = .next { s with clock := s.clock + 1 })

/-- Every command that names units the module has and carries a word of its row completes, in every state; no other outcome but a fault can stop it. -/
def Obligations.WellFormedCommandsComplete : Prop :=
  (∀ (c : Instr) (s : State), c.wf = true → ∃ t, exec c s = .next t) ∧
  ∀ (c : Instr) (s : State) (r : Refusal), exec c s ≠ .refused r

/-- No command touches the queue, so that a queue of well-formed commands runs to its end: each step answers a next state whose queue is well-formed
and one shorter. -/
def Obligations.QueueStaysWellFormed : Prop :=
  (∀ (c : Instr) (s t : State), exec c s = .next t → t.pending = s.pending) ∧
  (∀ (s t : State), queueWf s → step s = .next t → queueWf t ∧ t.pending = s.pending.tail) ∧
  ∀ (s : State), queueWf s → ∃ t, step s = .next t

/-- From every state whose Lining, Bolt and host memory are in canonical form, every step leaves them so. -/
def Obligations.MemoriesStayCanonical : Prop :=
  ∀ (s t : State), canonical s → step s = .next t → canonical t

/-- The state after reset has its memories in canonical form and an empty, well-formed queue. -/
def Obligations.ResetIsCanonical : Prop :=
  canonical State.reset ∧ State.reset.pending = [] ∧ queueWf State.reset

/-- R495, R530, R616, R620, R627, R636, R643: what the spec gives registers and objects before power is applied. -/
def Obligations.ResetValues : Prop :=
  let s := State.reset
  s.pow.on = false ∧ s.pow.refclk = false ∧ s.pow.trayCycle = false ∧ s.pow.events = [] ∧
  s.brg.phase = 0 ∧ s.brg.mode = 1 ∧ s.brg.report = [] ∧ s.brg.timeMs = 0 ∧ s.brg.accept = false ∧ s.brg.short = 0 ∧ s.brg.fastSince = 0 ∧ s.brg.diff = 0 ∧
  s.stw.mstate = .off ∧ s.stw.d.gen = 0 ∧ s.stw.d.store = [] ∧ s.stw.d.transfers = [] ∧
  s.twin.state = twUnpaired ∧ s.twin.timeout = 5000 ∧ s.twin.status = 0 ∧ s.twin.addr = 0 ∧ s.twin.domains = [0, 0, 0, 0] ∧
  (∀ p, (s.part p).state = .empty ∧ (s.part p).mir.committed = 0xFFFFFFFF) ∧ (∀ k, (s.panel k).request = 0 ∧ (s.panel k).offset = 0 ∧ (s.panel k).refresh = 1) ∧
  (∀ k, (s.spPort k).state = 0 ∧ (s.spPort k).dupFrames = 0) ∧ (∀ n, (s.node n).halted = false ∧ (s.node n).fault = 0 ∧ (s.node n).core.retired = 0)

/-- R180, R204, R361, R364: the fields of a record header, a knot packet, a route header and a memory descriptor are read where they were put. -/
def Obligations.LayoutsRoundTrip : Prop :=
  (∀ (seq ep x y ctag : Nat) (r : OutRec), seq < 65536 → ep < 256 → x < 256 → y < 256 → ctag < 4 → r.tokval < 65536 → r.token < 16 → r.kind < 4 →
    r.woff < 2 ^ 17 → r.data.length ≤ 8192 →
    let h := mkHdr seq ep x y ctag r
    rhSeq h = seq ∧ rhEp h = ep ∧ rhX h = x ∧ rhY h = y ∧ rhTokval h = r.tokval ∧ rhToken h = r.token ∧ rhKind h = r.kind ∧ rhCtag h = ctag ∧ rhWoff h = r.woff ∧
    rhLen h = r.data.length ∧ rhFill h = r.fill ∧ rhNotify h = r.notify ∧ rhLetout h = false ∧ rhPoison h = r.poison ∧ fld h 28 0 = 0) ∧
  (∀ (src : NodeId) (d : Dest) (w : Way) (ty tclass owner flits : Nat), nodeExists src = true → nodeExists d.at' = true → w.x < 256 → w.y < 256 → d.exit < 4 →
    ty < 256 → tclass < 16 → owner < 32 → flits < 32 →
    let h := mkRoute src d w ty tclass owner flits
    rtDst h = d.at' ∧ rtSrc h = src ∧ rtWayEn h = w.en ∧ fld h 95 88 = w.x ∧ fld h 87 80 = w.y ∧ rtLeg h = false ∧ rtClass h = typeClass ty ∧ rtExit h = d.exit ∧
    rtMcast h = false ∧ rtFlits h = flits ∧ rtOwner h = owner ∧ rtTclass h = tclass ∧ rtType h = ty ∧ fld h 50 0 = 0) ∧
  (∀ (addr tag len status : Nat), addr < 2 ^ 48 → tag < 2 ^ 16 → len ≤ 8192 → status < 256 →
    let h := memDesc addr tag len status
    mdAddr h = addr ∧ mdTag h = tag ∧ mdLen h = len ∧ mdStatus h = status ∧ fld h 41 0 = 0) ∧
  ∀ (op part knot ticket status value count : Nat) (req : NodeId), op < 16 → part < 16 → knot < 2 ^ 16 → ticket < 256 → status < 256 → value < 2 ^ 32 → count < 2 ^ 32 →
    nodeExists req = true →
    let h := knotPay op part knot ticket req status value count
    fld h 127 124 = op ∧ fld h 123 120 = part ∧ fld h 119 104 = knot ∧ fld h 103 96 = ticket ∧ nodeAt (fld h 95 88) (fld h 87 80) = req ∧ fld h 79 72 = status ∧
    fld h 71 64 = 0 ∧ fld h 63 32 = value ∧ fld h 31 0 = count
end

