-- ==== Sys2Proof/Laws/Table.lean ====
section
/-! SUPPORT. Tables and byte memories: a read after a write, and that every operation keeps the canonical form. -/

namespace Sys2Proof.Laws
open Sys2Proof

variable {α β : Type}

/-! ### Rising keys -/

theorem rising_cons {a : Nat} {l : List Nat} : rising (a :: l) = true ↔ (∀ b ∈ l, a < b) ∧ rising l = true := by
  induction l generalizing a with
  | nil => simp [rising]
  | cons b t ih =>
    simp only [rising, Bool.and_eq_true, decide_eq_true_eq, ih, List.mem_cons, forall_eq_or_imp]
    constructor
    · rintro ⟨h, h1, h2⟩
      exact ⟨⟨h, fun c hc => h.trans (h1 c hc)⟩, h1, h2⟩
    · rintro ⟨⟨h, _⟩, h2⟩
      exact ⟨h, h2⟩

theorem rising_iff {l : List Nat} : rising l = true ↔ l.Pairwise (· < ·) := by
  induction l with
  | nil => simp [rising]
  | cons a t ih => rw [rising_cons, List.pairwise_cons, ih]

theorem table_wf_iff {t : Table α} : Table.wf t = true ↔ List.Pairwise (fun a b => a.1 < b.1) t := by
  rw [Table.wf, rising_iff, List.pairwise_map]

theorem memory_wf_iff {m : Memory} :
    Memory.wf m = true ↔ List.Pairwise (fun a b => a.1 < b.1) m ∧ ∀ c ∈ m, c.2 ≠ 0 := by
  simp only [Memory.wf, Bool.and_eq_true, rising_iff, List.pairwise_map, List.all_eq_true, bne_iff_ne]

/-! ### Tables -/

@[simp] theorem table_get_nil (d : α) (i : Nat) : Table.get d [] i = d := rfl

@[simp] theorem table_get_put_self (d : α) (t : Table α) (i : Nat) (v : α) : Table.get d (Table.put t i v) i = v := by
  induction t with
  | nil => simp [Table.put, Table.get]
  | cons e t ih =>
    obtain ⟨k, u⟩ := e
    unfold Table.put
    split
    · simp [Table.get]
    · split
      · simp [Table.get]
      · simp only [Table.get, *, if_false]

theorem table_get_put_ne (d : α) (t : Table α) {i j : Nat} (v : α) (h : j ≠ i) :
    Table.get d (Table.put t i v) j = Table.get d t j := by
  induction t with
  | nil => simp [Table.put, Table.get, Ne.symm h]
  | cons e t ih =>
    obtain ⟨k, u⟩ := e
    unfold Table.put
    split
    · rename_i hik
      simp only [Table.get, if_neg (Ne.symm h)]
      by_cases hji : j < i
      · rw [if_pos hji, if_neg (by omega), if_pos (by omega)]
      · rw [if_neg hji]
    · split
      · subst_vars
        simp only [Table.get, if_neg (Ne.symm h)]
      · simp only [Table.get, ih]

/-- A read after a write, in one line. -/
theorem table_get_put (d : α) (t : Table α) (i j : Nat) (v : α) :
    Table.get d (Table.put t i v) j = if j = i then v else Table.get d t j := by
  split
  · subst_vars
    simp
  · exact table_get_put_ne d t v ‹_›

/-- What a put leaves: each entry is the one put or an old one. -/
theorem mem_table_put {t : Table α} {i : Nat} {v : α} {e : Nat × α} (h : e ∈ Table.put t i v) : e = (i, v) ∨ e ∈ t := by
  induction t with
  | nil => simpa [Table.put] using h
  | cons c t ih =>
    obtain ⟨k, u⟩ := c
    unfold Table.put at h
    split at h
    · simpa using h
    · split at h
      · simp only [List.mem_cons] at h ⊢
        tauto
      · simp only [List.mem_cons] at h ⊢
        tauto

theorem table_wf_put {t : Table α} (h : Table.wf t = true) (i : Nat) (v : α) : Table.wf (Table.put t i v) = true := by
  rw [table_wf_iff] at *
  induction t with
  | nil => simp [Table.put]
  | cons c t ih =>
    obtain ⟨k, u⟩ := c
    rw [List.pairwise_cons] at h
    unfold Table.put
    split
    · rename_i hik
      refine List.pairwise_cons.2 ⟨?_, List.pairwise_cons.2 h⟩
      intro b hb
      rcases List.mem_cons.1 hb with rfl | hb
      · exact hik
      · exact hik.trans (h.1 b hb)
    · split
      · rename_i hk
        subst hk
        exact List.pairwise_cons.2 h
      · refine List.pairwise_cons.2 ⟨?_, ih h.2⟩
        intro b hb
        rcases mem_table_put hb with rfl | hb
        · show k < i
          omega
        · exact h.1 b hb

theorem mem_table_del {t : Table α} {i : Nat} {e : Nat × α} (h : e ∈ Table.del t i) : e ∈ t := by
  induction t with
  | nil => simp [Table.del] at h
  | cons c t ih =>
    obtain ⟨k, u⟩ := c
    unfold Table.del at h
    split at h
    · exact h
    · split at h
      · exact List.mem_cons_of_mem _ h
      · rcases List.mem_cons.1 h with rfl | h
        · exact List.mem_cons_self
        · exact List.mem_cons_of_mem _ (ih h)

theorem table_wf_del {t : Table α} (h : Table.wf t = true) (i : Nat) : Table.wf (Table.del t i) = true := by
  rw [table_wf_iff] at *
  induction t with
  | nil => simp [Table.del]
  | cons c t ih =>
    obtain ⟨k, u⟩ := c
    rw [List.pairwise_cons] at h
    unfold Table.del
    split
    · exact List.pairwise_cons.2 h
    · split
      · exact h.2
      · exact List.pairwise_cons.2 ⟨fun b hb => h.1 b (mem_table_del hb), ih h.2⟩

/-- A key below every listed one reads the default. -/
theorem table_get_below (d : α) {t : Table α} {i : Nat} (h : ∀ e ∈ t, i < e.1) : Table.get d t i = d := by
  cases t with
  | nil => rfl
  | cons c t =>
    have := h c List.mem_cons_self
    simp only [Table.get]
    rw [if_neg (by omega), if_pos this]

theorem table_get_del (d : α) {t : Table α} (h : Table.wf t = true) (i j : Nat) :
    Table.get d (Table.del t i) j = if j = i then d else Table.get d t j := by
  rw [table_wf_iff] at h
  induction t with
  | nil => simp [Table.del]
  | cons c t ih =>
    obtain ⟨k, u⟩ := c
    rw [List.pairwise_cons] at h
    unfold Table.del
    split
    · rename_i hik
      split
      · subst_vars
        simp only [Table.get]
        rw [if_neg (by omega), if_pos hik]
      · rfl
    · split
      · rename_i hk
        subst hk
        split
        · subst_vars
          exact table_get_below d h.1
        · rename_i hji
          simp only [Table.get, if_neg (Ne.symm hji)]
          split
          · exact table_get_below d (fun e he => by have := h.1 e he; simp only at this; omega)
          · rfl
      · simp only [Table.get, ih h.2]
        split_ifs <;> first | rfl | omega

theorem table_wf_mapVals {t : Table α} (f : Nat → α → β) : Table.wf (Table.mapVals f t) = Table.wf t := by
  simp [Table.wf, Table.mapVals, Function.comp_def]

theorem table_get_mapVals (d : α) (e : β) (t : Table α) (f : Nat → α → β) (hd : ∀ i, f i d = e) (i : Nat) :
    Table.get e (Table.mapVals f t) i = f i (Table.get d t i) := by
  induction t with
  | nil => simp [Table.mapVals, Table.get, hd]
  | cons c t ih =>
    obtain ⟨k, u⟩ := c
    simp only [Table.mapVals, List.map_cons, Table.get] at *
    split
    · subst_vars
      rfl
    · split
      · exact (hd i).symm
      · exact ih

/-! ### Byte memories -/

/-- The canonical form as rising addresses and nonzero bytes. -/
theorem memory_wf_table {m : Memory} (h : Memory.wf m = true) : Table.wf m = true := by
  rw [table_wf_iff]
  exact (memory_wf_iff.1 h).1

theorem memory_wf_nil : Memory.wf [] = true := rfl

theorem memory_wf_store {m : Memory} (h : Memory.wf m = true) (a : Nat) (b : Byte) : Memory.wf (Memory.store m a b) = true := by
  have ht := memory_wf_table h
  have hz := (memory_wf_iff.1 h).2
  unfold Memory.store
  split
  · exact memory_wf_iff.2 ⟨table_wf_iff.1 (table_wf_del ht a), fun c hc => hz c (mem_table_del hc)⟩
  · refine memory_wf_iff.2 ⟨table_wf_iff.1 (table_wf_put ht a b), fun c hc => ?_⟩
    rcases mem_table_put hc with rfl | hc
    · assumption
    · exact hz c hc

/-- Storing one byte: it reads back, and no other byte changes. -/
theorem memory_byte_store {m : Memory} (h : Memory.wf m = true) (a x : Nat) (b : Byte) :
    (Memory.store m a b).byte x = if x = a then b else m.byte x := by
  unfold Memory.store Memory.byte
  split
  · rw [table_get_del 0 (memory_wf_table h)]
    simp [*]
  · exact table_get_put 0 m a x b

theorem memory_wf_filter {m : Memory} (h : Memory.wf m = true) (p : Nat × Byte → Bool) :
    Memory.wf (List.filter p m) = true := by
  rw [memory_wf_iff] at *
  exact ⟨h.1.filter p, fun c hc => h.2 c (List.mem_of_mem_filter hc)⟩

theorem memory_wf_zero {m : Memory} (h : Memory.wf m = true) (a n : Nat) : Memory.wf (Memory.zero m a n) = true :=
  memory_wf_filter h _

theorem mem_cellsOf {a : Nat} {bs : List Byte} {c : Nat × Byte} (h : c ∈ cellsOf a bs) :
    a ≤ c.1 ∧ c.1 < a + bs.length ∧ c.2 ≠ 0 ∧ bs[c.1 - a]? = some c.2 := by
  induction bs generalizing a with
  | nil => simp [cellsOf] at h
  | cons b bs ih =>
    unfold cellsOf at h
    split at h
    · obtain ⟨h1, h2, h3, h4⟩ := ih h
      refine ⟨by omega, by simp; omega, h3, ?_⟩
      rw [show c.1 - a = (c.1 - (a + 1)) + 1 by omega]
      simpa using h4
    · rcases List.mem_cons.1 h with rfl | h
      · simpa using ‹¬ b = 0›
      · obtain ⟨h1, h2, h3, h4⟩ := ih h
        refine ⟨by omega, by simp; omega, h3, ?_⟩
        rw [show c.1 - a = (c.1 - (a + 1)) + 1 by omega]
        simpa using h4

theorem cellsOf_pairwise (a : Nat) (bs : List Byte) : List.Pairwise (fun x y : Nat × Byte => x.1 < y.1) (cellsOf a bs) := by
  induction bs generalizing a with
  | nil => simp [cellsOf]
  | cons b bs ih =>
    unfold cellsOf
    split
    · exact ih _
    · exact List.pairwise_cons.2 ⟨fun c hc => (mem_cellsOf hc).1, ih _⟩

theorem memory_wf_write {m : Memory} (h : Memory.wf m = true) (a : Nat) (bs : List Byte) :
    Memory.wf (Memory.write m a bs) = true := by
  rw [memory_wf_iff] at *
  obtain ⟨h1, h2⟩ := h
  constructor
  · unfold Memory.write
    refine List.pairwise_append.2 ⟨h1.filter _, List.pairwise_append.2 ⟨cellsOf_pairwise a bs, h1.filter _, ?_⟩, ?_⟩
    · intro x hx y hy
      have := mem_cellsOf hx
      have hy := List.of_mem_filter hy
      simp only [decide_eq_true_eq] at hy
      omega
    · intro x hx y hy
      have hx := List.of_mem_filter hx
      simp only [decide_eq_true_eq] at hx
      rcases List.mem_append.1 hy with hy | hy
      · exact lt_of_lt_of_le hx (mem_cellsOf hy).1
      · have hy := List.of_mem_filter hy
        simp only [decide_eq_true_eq] at hy
        omega
  · intro c hc
    simp only [Memory.write, List.mem_append] at hc
    rcases hc with hc | hc | hc
    · exact h2 c (List.mem_of_mem_filter hc)
    · exact (mem_cellsOf hc).2.2.1
    · exact h2 c (List.mem_of_mem_filter hc)

/-- A listed key of a canonical table reads its value. -/
theorem table_get_mem (d : α) {t : Table α} (h : Table.wf t = true) {i : Nat} {v : α} (hm : (i, v) ∈ t) : Table.get d t i = v := by
  rw [table_wf_iff] at h
  induction t with
  | nil => simp at hm
  | cons c t ih =>
    obtain ⟨k, u⟩ := c
    rw [List.pairwise_cons] at h
    rcases List.mem_cons.1 hm with hm | hm
    · obtain ⟨rfl, rfl⟩ := Prod.mk.inj hm
      simp [Table.get]
    · have := h.1 _ hm
      simp only at this
      simp only [Table.get]
      rw [if_neg (by omega), if_neg (by omega)]
      exact ih h.2 hm

/-- A key that is not listed reads the default. -/
theorem table_get_not_mem (d : α) {t : Table α} {i : Nat} (hm : ∀ e ∈ t, e.1 ≠ i) : Table.get d t i = d := by
  induction t with
  | nil => rfl
  | cons c t ih =>
    obtain ⟨k, u⟩ := c
    have hk : k ≠ i := hm (k, u) List.mem_cons_self
    simp only [Table.get, if_neg hk]
    split
    · rfl
    · exact ih (fun e he => hm e (List.mem_cons_of_mem _ he))

theorem table_get_eq_of_mem_iff (d : α) {t u : Table α} (ht : Table.wf t = true) (hu : Table.wf u = true) {i : Nat}
    (h : ∀ v, (i, v) ∈ t ↔ (i, v) ∈ u) : Table.get d t i = Table.get d u i := by
  by_cases hi : ∃ v, (i, v) ∈ t
  · obtain ⟨v, hv⟩ := hi
    rw [table_get_mem d ht hv, table_get_mem d hu ((h v).1 hv)]
  · rw [table_get_not_mem d, table_get_not_mem d]
    · rintro ⟨k, v⟩ he rfl
      exact hi ⟨v, (h v).2 he⟩
    · rintro ⟨k, v⟩ he rfl
      exact hi ⟨v, he⟩

/-- Zeroing a range: its bytes read zero, and no other byte changes. -/
theorem memory_byte_zero {m : Memory} (h : Memory.wf m = true) (a n x : Nat) :
    (Memory.zero m a n).byte x = if a ≤ x ∧ x < a + n then 0 else m.byte x := by
  unfold Memory.byte
  split
  · refine table_get_not_mem 0 ?_
    rintro e he rfl
    have := List.of_mem_filter he
    simp only [decide_eq_true_eq] at this
    omega
  · refine table_get_eq_of_mem_iff 0 (memory_wf_table (memory_wf_zero h a n)) (memory_wf_table h) (fun v => ?_)
    rw [Memory.zero, List.mem_filter]
    simp only [decide_eq_true_eq, and_iff_left_iff_imp]
    omega

/-- A write leaves every byte outside its range as it was. -/
theorem memory_byte_write_outside {m : Memory} (h : Memory.wf m = true) (a x : Nat) (bs : List Byte)
    (hx : x < a ∨ a + bs.length ≤ x) : (Memory.write m a bs).byte x = m.byte x := by
  refine table_get_eq_of_mem_iff 0 (memory_wf_table (memory_wf_write h a bs)) (memory_wf_table h) (fun v => ?_)
  simp only [Memory.write, List.mem_append, List.mem_filter, decide_eq_true_eq]
  constructor
  · rintro (⟨hm, _⟩ | hm | ⟨hm, _⟩)
    · exact hm
    · have := mem_cellsOf hm
      simp only at this
      omega
    · exact hm
  · intro hm
    rcases hx with hx | hx
    · exact .inl ⟨hm, hx⟩
    · exact .inr (.inr ⟨hm, hx⟩)

theorem cellsOf_mem {a i : Nat} {bs : List Byte} {b : Byte} (h : bs[i]? = some b) (hb : b ≠ 0) : (a + i, b) ∈ cellsOf a bs := by
  induction bs generalizing a i with
  | nil => simp at h
  | cons c bs ih =>
    cases i with
    | zero =>
      simp only [List.getElem?_cons_zero, Option.some.injEq] at h
      subst h
      rw [cellsOf, if_neg hb]
      exact List.mem_cons_self
    | succ i =>
      simp only [List.getElem?_cons_succ] at h
      have := ih (a := a + 1) h
      rw [show a + (i + 1) = a + 1 + i by omega]
      unfold cellsOf
      split
      · exact this
      · exact List.mem_cons_of_mem _ this

/-- A write reads back. -/
theorem memory_byte_write_inside {m : Memory} (h : Memory.wf m = true) (a i : Nat) (bs : List Byte) {b : Byte} (hb : bs[i]? = some b) :
    (Memory.write m a bs).byte (a + i) = b := by
  have hi : i < bs.length := (List.getElem?_eq_some_iff.1 hb).1
  by_cases hz : b = 0
  · subst hz
    refine table_get_not_mem 0 ?_
    rintro e he hea
    simp only [Memory.write, List.mem_append, List.mem_filter, decide_eq_true_eq] at he
    rcases he with ⟨_, he⟩ | he | ⟨_, he⟩
    · omega
    · obtain ⟨_, _, h3, h4⟩ := mem_cellsOf he
      rw [show e.1 - a = i by omega, hb] at h4
      exact h3 (Option.some.inj h4).symm
    · omega
  · refine table_get_mem 0 (memory_wf_table (memory_wf_write h a bs)) ?_
    simp only [Memory.write, List.mem_append]
    exact .inr (.inl (cellsOf_mem hb hz))

theorem bytesFrom_length (m : Memory) (a n : Nat) : (Memory.bytesFrom m a n).length = n := by
  induction n generalizing m a with
  | zero => cases m <;> rfl
  | succ n ih =>
    cases m with
    | nil => simp [Memory.bytesFrom, ih]
    | cons c t =>
      obtain ⟨k, v⟩ := c
      unfold Memory.bytesFrom
      split <;> simp [ih]

@[simp] theorem memory_bytes_length (m : Memory) (a n : Nat) : (m.bytes a n).length = n := bytesFrom_length _ a n

theorem bytesFrom_getElem? {m : Memory} (h : Table.wf m = true) {a n i : Nat} (hm : ∀ c ∈ m, a ≤ c.1) (hi : i < n) :
    (Memory.bytesFrom m a n)[i]? = some (m.byte (a + i)) := by
  induction n generalizing m a i with
  | zero => omega
  | succ n ih =>
    cases m with
    | nil =>
      cases i with
      | zero => simp [Memory.bytesFrom, Memory.byte]
      | succ i =>
        simp only [Memory.bytesFrom, List.getElem?_cons_succ]
        rw [ih rfl (by simp) (by omega)]
        rfl
    | cons c t =>
      obtain ⟨k, v⟩ := c
      have hw := List.pairwise_cons.1 (table_wf_iff.1 h)
      have hk : a ≤ k := hm (k, v) List.mem_cons_self
      unfold Memory.bytesFrom
      split
      · rename_i hka
        subst hka
        cases i with
        | zero => simp [Memory.byte, Table.get]
        | succ i =>
          simp only [List.getElem?_cons_succ]
          rw [ih (table_wf_iff.2 hw.2) (fun c hc => hw.1 c hc) (by omega)]
          simp only [Memory.byte, Table.get]
          rw [if_neg (by omega), if_neg (by omega), show k + 1 + i = k + (i + 1) by omega]
      · rename_i hka
        cases i with
        | zero =>
          simp only [List.getElem?_cons_zero, Memory.byte, Table.get]
          rw [if_neg (by omega), if_pos (by omega)]
        | succ i =>
          simp only [List.getElem?_cons_succ]
          rw [ih h (fun c hc => ?_) (by omega)]
          · rw [show a + 1 + i = a + (i + 1) by omega]
          · rcases List.mem_cons.1 hc with rfl | hc
            · show a + 1 ≤ k
              omega
            · have := hw.1 c hc
              simp only at this
              omega

/-- Byte i of a read of n bytes is the byte at that address. -/
theorem memory_bytes_getElem? {m : Memory} (h : Memory.wf m = true) (a : Nat) {n i : Nat} (hi : i < n) :
    (m.bytes a n)[i]? = some (m.byte (a + i)) := by
  unfold Memory.bytes
  rw [bytesFrom_getElem? (memory_wf_table (memory_wf_filter h _)) (fun c hc => by simpa using List.of_mem_filter hc) hi]
  refine congrArg some (table_get_eq_of_mem_iff 0 (memory_wf_table (memory_wf_filter h _)) (memory_wf_table h) (fun v => ?_))
  simp [List.mem_filter]

/-! ### Ranges and sets of numbers -/

@[simp] theorem mem_rangeFrom {a n x : Nat} : x ∈ rangeFrom a n ↔ a ≤ x ∧ x < a + n := by
  induction n generalizing a with
  | zero => simp [rangeFrom]
  | succ n ih =>
    simp only [rangeFrom, List.mem_cons, ih]
    omega

@[simp] theorem mem_setIns {l : List Nat} {x y : Nat} : y ∈ setIns l x ↔ y = x ∨ y ∈ l := by
  induction l with
  | nil => simp [setIns]
  | cons a t ih =>
    unfold setIns
    split
    · simp
    · split
      · subst_vars
        simp
      · simp only [List.mem_cons, ih]
        tauto

@[simp] theorem mem_setDel {l : List Nat} {x y : Nat} : y ∈ setDel l x ↔ y ∈ l ∧ y ≠ x := by
  simp [setDel, List.mem_filter]

end Sys2Proof.Laws
end

