-- ==== Sys2Proof/Laws/State.lean ====
section
/-! SUPPORT. Every update of the state: the fields it leaves alone, and what reading back gives. -/

namespace Sys2Proof.Laws
open Sys2Proof Sys2Proof.Machine

variable (s : State)

/-! ### What each update leaves alone -/

@[simp] theorem setNode_frame (n : NodeId) (d : Node) :
    (s.setNode n d).pending = s.pending ∧ (s.setNode n d).clock = s.clock ∧ (s.setNode n d).free = s.free ∧ (s.setNode n d).routers = s.routers ∧
    (s.setNode n d).flight = s.flight ∧ (s.setNode n d).nextPid = s.nextPid ∧ (s.setNode n d).lining = s.lining ∧ (s.setNode n d).bolt = s.bolt ∧
    (s.setNode n d).boltMeta = s.boltMeta ∧ (s.setNode n d).parts = s.parts ∧ (s.setNode n d).panels = s.panels ∧ (s.setNode n d).stw = s.stw ∧
    (s.setNode n d).hemA = s.hemA ∧ (s.setNode n d).hemB = s.hemB ∧ (s.setNode n d).io = s.io ∧ (s.setNode n d).hostMem = s.hostMem ∧
    (s.setNode n d).twin = s.twin ∧ (s.setNode n d).sec = s.sec ∧ (s.setNode n d).pow = s.pow ∧ (s.setNode n d).brg = s.brg :=
  ⟨rfl, rfl, rfl, rfl, rfl, rfl, rfl, rfl, rfl, rfl, rfl, rfl, rfl, rfl, rfl, rfl, rfl, rfl, rfl, rfl⟩
@[simp] theorem updNode_frame (n : NodeId) (f : Node → Node) :
    (s.updNode n f).pending = s.pending ∧ (s.updNode n f).clock = s.clock ∧ (s.updNode n f).free = s.free ∧ (s.updNode n f).routers = s.routers ∧
    (s.updNode n f).flight = s.flight ∧ (s.updNode n f).nextPid = s.nextPid ∧ (s.updNode n f).lining = s.lining ∧ (s.updNode n f).bolt = s.bolt ∧
    (s.updNode n f).boltMeta = s.boltMeta ∧ (s.updNode n f).parts = s.parts ∧ (s.updNode n f).panels = s.panels ∧ (s.updNode n f).stw = s.stw ∧
    (s.updNode n f).hemA = s.hemA ∧ (s.updNode n f).hemB = s.hemB ∧ (s.updNode n f).io = s.io ∧ (s.updNode n f).hostMem = s.hostMem ∧
    (s.updNode n f).twin = s.twin ∧ (s.updNode n f).sec = s.sec ∧ (s.updNode n f).pow = s.pow ∧ (s.updNode n f).brg = s.brg :=
  ⟨rfl, rfl, rfl, rfl, rfl, rfl, rfl, rfl, rfl, rfl, rfl, rfl, rfl, rfl, rfl, rfl, rfl, rfl, rfl, rfl⟩
@[simp] theorem updLn_frame (l : Nat) (f : LNode → LNode) :
    (s.updLn l f).pending = s.pending ∧ (s.updLn l f).clock = s.clock ∧ (s.updLn l f).free = s.free ∧ (s.updLn l f).routers = s.routers ∧
    (s.updLn l f).flight = s.flight ∧ (s.updLn l f).nextPid = s.nextPid ∧ (s.updLn l f).lining = s.lining ∧ (s.updLn l f).bolt = s.bolt ∧
    (s.updLn l f).boltMeta = s.boltMeta ∧ (s.updLn l f).parts = s.parts ∧ (s.updLn l f).panels = s.panels ∧ (s.updLn l f).stw = s.stw ∧
    (s.updLn l f).hemA = s.hemA ∧ (s.updLn l f).hemB = s.hemB ∧ (s.updLn l f).io = s.io ∧ (s.updLn l f).hostMem = s.hostMem ∧
    (s.updLn l f).twin = s.twin ∧ (s.updLn l f).sec = s.sec ∧ (s.updLn l f).pow = s.pow ∧ (s.updLn l f).brg = s.brg :=
  ⟨rfl, rfl, rfl, rfl, rfl, rfl, rfl, rfl, rfl, rfl, rfl, rfl, rfl, rfl, rfl, rfl, rfl, rfl, rfl, rfl⟩
@[simp] theorem updBobbin_frame (l e : Nat) (f : Bobbin → Bobbin) :
    (s.updBobbin l e f).pending = s.pending ∧ (s.updBobbin l e f).clock = s.clock ∧ (s.updBobbin l e f).free = s.free ∧ (s.updBobbin l e f).routers = s.routers ∧
    (s.updBobbin l e f).flight = s.flight ∧ (s.updBobbin l e f).nextPid = s.nextPid ∧ (s.updBobbin l e f).lining = s.lining ∧ (s.updBobbin l e f).bolt = s.bolt ∧
    (s.updBobbin l e f).boltMeta = s.boltMeta ∧ (s.updBobbin l e f).parts = s.parts ∧ (s.updBobbin l e f).panels = s.panels ∧ (s.updBobbin l e f).stw = s.stw ∧
    (s.updBobbin l e f).hemA = s.hemA ∧ (s.updBobbin l e f).hemB = s.hemB ∧ (s.updBobbin l e f).io = s.io ∧ (s.updBobbin l e f).hostMem = s.hostMem ∧
    (s.updBobbin l e f).twin = s.twin ∧ (s.updBobbin l e f).sec = s.sec ∧ (s.updBobbin l e f).pow = s.pow ∧ (s.updBobbin l e f).brg = s.brg :=
  ⟨rfl, rfl, rfl, rfl, rfl, rfl, rfl, rfl, rfl, rfl, rfl, rfl, rfl, rfl, rfl, rfl, rfl, rfl, rfl, rfl⟩
@[simp] theorem setKnot_frame (k : Nat) (x : Knot) :
    (s.setKnot k x).pending = s.pending ∧ (s.setKnot k x).clock = s.clock ∧ (s.setKnot k x).free = s.free ∧ (s.setKnot k x).routers = s.routers ∧
    (s.setKnot k x).flight = s.flight ∧ (s.setKnot k x).nextPid = s.nextPid ∧ (s.setKnot k x).lining = s.lining ∧ (s.setKnot k x).bolt = s.bolt ∧
    (s.setKnot k x).boltMeta = s.boltMeta ∧ (s.setKnot k x).parts = s.parts ∧ (s.setKnot k x).panels = s.panels ∧ (s.setKnot k x).stw = s.stw ∧
    (s.setKnot k x).hemA = s.hemA ∧ (s.setKnot k x).hemB = s.hemB ∧ (s.setKnot k x).io = s.io ∧ (s.setKnot k x).hostMem = s.hostMem ∧
    (s.setKnot k x).twin = s.twin ∧ (s.setKnot k x).sec = s.sec ∧ (s.setKnot k x).pow = s.pow ∧ (s.setKnot k x).brg = s.brg :=
  ⟨rfl, rfl, rfl, rfl, rfl, rfl, rfl, rfl, rfl, rfl, rfl, rfl, rfl, rfl, rfl, rfl, rfl, rfl, rfl, rfl⟩
@[simp] theorem setPart_frame (p : Nat) (x : Partition) :
    (s.setPart p x).pending = s.pending ∧ (s.setPart p x).clock = s.clock ∧ (s.setPart p x).free = s.free ∧ (s.setPart p x).nodes = s.nodes ∧
    (s.setPart p x).routers = s.routers ∧ (s.setPart p x).flight = s.flight ∧ (s.setPart p x).nextPid = s.nextPid ∧ (s.setPart p x).lining = s.lining ∧
    (s.setPart p x).bolt = s.bolt ∧ (s.setPart p x).boltMeta = s.boltMeta ∧ (s.setPart p x).panels = s.panels ∧ (s.setPart p x).stw = s.stw ∧
    (s.setPart p x).hemA = s.hemA ∧ (s.setPart p x).hemB = s.hemB ∧ (s.setPart p x).io = s.io ∧ (s.setPart p x).hostMem = s.hostMem ∧
    (s.setPart p x).twin = s.twin ∧ (s.setPart p x).sec = s.sec ∧ (s.setPart p x).pow = s.pow ∧ (s.setPart p x).brg = s.brg :=
  ⟨rfl, rfl, rfl, rfl, rfl, rfl, rfl, rfl, rfl, rfl, rfl, rfl, rfl, rfl, rfl, rfl, rfl, rfl, rfl, rfl⟩
@[simp] theorem updPart_frame (p : Nat) (f : Partition → Partition) :
    (s.updPart p f).pending = s.pending ∧ (s.updPart p f).clock = s.clock ∧ (s.updPart p f).free = s.free ∧ (s.updPart p f).nodes = s.nodes ∧
    (s.updPart p f).routers = s.routers ∧ (s.updPart p f).flight = s.flight ∧ (s.updPart p f).nextPid = s.nextPid ∧ (s.updPart p f).lining = s.lining ∧
    (s.updPart p f).bolt = s.bolt ∧ (s.updPart p f).boltMeta = s.boltMeta ∧ (s.updPart p f).panels = s.panels ∧ (s.updPart p f).stw = s.stw ∧
    (s.updPart p f).hemA = s.hemA ∧ (s.updPart p f).hemB = s.hemB ∧ (s.updPart p f).io = s.io ∧ (s.updPart p f).hostMem = s.hostMem ∧
    (s.updPart p f).twin = s.twin ∧ (s.updPart p f).sec = s.sec ∧ (s.updPart p f).pow = s.pow ∧ (s.updPart p f).brg = s.brg :=
  ⟨rfl, rfl, rfl, rfl, rfl, rfl, rfl, rfl, rfl, rfl, rfl, rfl, rfl, rfl, rfl, rfl, rfl, rfl, rfl, rfl⟩
@[simp] theorem updPanel_frame (p : Nat) (f : Panel → Panel) :
    (s.updPanel p f).pending = s.pending ∧ (s.updPanel p f).clock = s.clock ∧ (s.updPanel p f).free = s.free ∧ (s.updPanel p f).nodes = s.nodes ∧
    (s.updPanel p f).routers = s.routers ∧ (s.updPanel p f).flight = s.flight ∧ (s.updPanel p f).nextPid = s.nextPid ∧ (s.updPanel p f).lining = s.lining ∧
    (s.updPanel p f).bolt = s.bolt ∧ (s.updPanel p f).boltMeta = s.boltMeta ∧ (s.updPanel p f).parts = s.parts ∧ (s.updPanel p f).stw = s.stw ∧
    (s.updPanel p f).hemA = s.hemA ∧ (s.updPanel p f).hemB = s.hemB ∧ (s.updPanel p f).io = s.io ∧ (s.updPanel p f).hostMem = s.hostMem ∧
    (s.updPanel p f).twin = s.twin ∧ (s.updPanel p f).sec = s.sec ∧ (s.updPanel p f).pow = s.pow ∧ (s.updPanel p f).brg = s.brg :=
  ⟨rfl, rfl, rfl, rfl, rfl, rfl, rfl, rfl, rfl, rfl, rfl, rfl, rfl, rfl, rfl, rfl, rfl, rfl, rfl, rfl⟩
@[simp] theorem updDict_frame (f : Dict → Dict) :
    (s.updDict f).pending = s.pending ∧ (s.updDict f).clock = s.clock ∧ (s.updDict f).free = s.free ∧ (s.updDict f).nodes = s.nodes ∧
    (s.updDict f).routers = s.routers ∧ (s.updDict f).flight = s.flight ∧ (s.updDict f).nextPid = s.nextPid ∧ (s.updDict f).lining = s.lining ∧
    (s.updDict f).bolt = s.bolt ∧ (s.updDict f).boltMeta = s.boltMeta ∧ (s.updDict f).parts = s.parts ∧ (s.updDict f).panels = s.panels ∧
    (s.updDict f).hemA = s.hemA ∧ (s.updDict f).hemB = s.hemB ∧ (s.updDict f).io = s.io ∧ (s.updDict f).hostMem = s.hostMem ∧
    (s.updDict f).twin = s.twin ∧ (s.updDict f).sec = s.sec ∧ (s.updDict f).pow = s.pow ∧ (s.updDict f).brg = s.brg :=
  ⟨rfl, rfl, rfl, rfl, rfl, rfl, rfl, rfl, rfl, rfl, rfl, rfl, rfl, rfl, rfl, rfl, rfl, rfl, rfl, rfl⟩
@[simp] theorem updFaults_frame (f : Faults → Faults) :
    (s.updFaults f).pending = s.pending ∧ (s.updFaults f).clock = s.clock ∧ (s.updFaults f).free = s.free ∧ (s.updFaults f).nodes = s.nodes ∧
    (s.updFaults f).routers = s.routers ∧ (s.updFaults f).flight = s.flight ∧ (s.updFaults f).nextPid = s.nextPid ∧ (s.updFaults f).lining = s.lining ∧
    (s.updFaults f).bolt = s.bolt ∧ (s.updFaults f).boltMeta = s.boltMeta ∧ (s.updFaults f).parts = s.parts ∧ (s.updFaults f).panels = s.panels ∧
    (s.updFaults f).hemA = s.hemA ∧ (s.updFaults f).hemB = s.hemB ∧ (s.updFaults f).io = s.io ∧ (s.updFaults f).hostMem = s.hostMem ∧
    (s.updFaults f).twin = s.twin ∧ (s.updFaults f).sec = s.sec ∧ (s.updFaults f).pow = s.pow ∧ (s.updFaults f).brg = s.brg :=
  ⟨rfl, rfl, rfl, rfl, rfl, rfl, rfl, rfl, rfl, rfl, rfl, rfl, rfl, rfl, rfl, rfl, rfl, rfl, rfl, rfl⟩
@[simp] theorem log_frame (e : FaultEvent) :
    (s.log e).pending = s.pending ∧ (s.log e).clock = s.clock ∧ (s.log e).free = s.free ∧ (s.log e).nodes = s.nodes ∧
    (s.log e).routers = s.routers ∧ (s.log e).flight = s.flight ∧ (s.log e).nextPid = s.nextPid ∧ (s.log e).lining = s.lining ∧
    (s.log e).bolt = s.bolt ∧ (s.log e).boltMeta = s.boltMeta ∧ (s.log e).parts = s.parts ∧ (s.log e).panels = s.panels ∧
    (s.log e).hemA = s.hemA ∧ (s.log e).hemB = s.hemB ∧ (s.log e).io = s.io ∧ (s.log e).hostMem = s.hostMem ∧
    (s.log e).twin = s.twin ∧ (s.log e).sec = s.sec ∧ (s.log e).pow = s.pow ∧ (s.log e).brg = s.brg :=
  updFaults_frame s _
@[simp] theorem journalled_frame :
    (s.journalled).pending = s.pending ∧ (s.journalled).clock = s.clock ∧ (s.journalled).free = s.free ∧ (s.journalled).nodes = s.nodes ∧
    (s.journalled).routers = s.routers ∧ (s.journalled).flight = s.flight ∧ (s.journalled).nextPid = s.nextPid ∧ (s.journalled).lining = s.lining ∧
    (s.journalled).bolt = s.bolt ∧ (s.journalled).boltMeta = s.boltMeta ∧ (s.journalled).parts = s.parts ∧ (s.journalled).panels = s.panels ∧
    (s.journalled).hemA = s.hemA ∧ (s.journalled).hemB = s.hemB ∧ (s.journalled).io = s.io ∧ (s.journalled).hostMem = s.hostMem ∧
    (s.journalled).twin = s.twin ∧ (s.journalled).sec = s.sec ∧ (s.journalled).pow = s.pow ∧ (s.journalled).brg = s.brg :=
  ⟨rfl, rfl, rfl, rfl, rfl, rfl, rfl, rfl, rfl, rfl, rfl, rfl, rfl, rfl, rfl, rfl, rfl, rfl, rfl, rfl⟩
@[simp] theorem updRouter_frame (r : NodeId) (f : Router → Router) :
    (s.updRouter r f).pending = s.pending ∧ (s.updRouter r f).clock = s.clock ∧ (s.updRouter r f).free = s.free ∧ (s.updRouter r f).nodes = s.nodes ∧
    (s.updRouter r f).flight = s.flight ∧ (s.updRouter r f).nextPid = s.nextPid ∧ (s.updRouter r f).lining = s.lining ∧ (s.updRouter r f).bolt = s.bolt ∧
    (s.updRouter r f).boltMeta = s.boltMeta ∧ (s.updRouter r f).parts = s.parts ∧ (s.updRouter r f).panels = s.panels ∧ (s.updRouter r f).stw = s.stw ∧
    (s.updRouter r f).hemA = s.hemA ∧ (s.updRouter r f).hemB = s.hemB ∧ (s.updRouter r f).io = s.io ∧ (s.updRouter r f).hostMem = s.hostMem ∧
    (s.updRouter r f).twin = s.twin ∧ (s.updRouter r f).sec = s.sec ∧ (s.updRouter r f).pow = s.pow ∧ (s.updRouter r f).brg = s.brg :=
  ⟨rfl, rfl, rfl, rfl, rfl, rfl, rfl, rfl, rfl, rfl, rfl, rfl, rfl, rfl, rfl, rfl, rfl, rfl, rfl, rfl⟩
@[simp] theorem updPort_frame (r : NodeId) (p : Nat) (f : Port → Port) :
    (s.updPort r p f).pending = s.pending ∧ (s.updPort r p f).clock = s.clock ∧ (s.updPort r p f).free = s.free ∧ (s.updPort r p f).nodes = s.nodes ∧
    (s.updPort r p f).flight = s.flight ∧ (s.updPort r p f).nextPid = s.nextPid ∧ (s.updPort r p f).lining = s.lining ∧ (s.updPort r p f).bolt = s.bolt ∧
    (s.updPort r p f).boltMeta = s.boltMeta ∧ (s.updPort r p f).parts = s.parts ∧ (s.updPort r p f).panels = s.panels ∧ (s.updPort r p f).stw = s.stw ∧
    (s.updPort r p f).hemA = s.hemA ∧ (s.updPort r p f).hemB = s.hemB ∧ (s.updPort r p f).io = s.io ∧ (s.updPort r p f).hostMem = s.hostMem ∧
    (s.updPort r p f).twin = s.twin ∧ (s.updPort r p f).sec = s.sec ∧ (s.updPort r p f).pow = s.pow ∧ (s.updPort r p f).brg = s.brg :=
  ⟨rfl, rfl, rfl, rfl, rfl, rfl, rfl, rfl, rfl, rfl, rfl, rfl, rfl, rfl, rfl, rfl, rfl, rfl, rfl, rfl⟩
@[simp] theorem updIo_frame (f : HostIo → HostIo) :
    (s.updIo f).pending = s.pending ∧ (s.updIo f).clock = s.clock ∧ (s.updIo f).free = s.free ∧ (s.updIo f).nodes = s.nodes ∧
    (s.updIo f).routers = s.routers ∧ (s.updIo f).flight = s.flight ∧ (s.updIo f).nextPid = s.nextPid ∧ (s.updIo f).lining = s.lining ∧
    (s.updIo f).bolt = s.bolt ∧ (s.updIo f).boltMeta = s.boltMeta ∧ (s.updIo f).parts = s.parts ∧ (s.updIo f).panels = s.panels ∧
    (s.updIo f).stw = s.stw ∧ (s.updIo f).hemA = s.hemA ∧ (s.updIo f).hemB = s.hemB ∧ (s.updIo f).hostMem = s.hostMem ∧
    (s.updIo f).twin = s.twin ∧ (s.updIo f).sec = s.sec ∧ (s.updIo f).pow = s.pow ∧ (s.updIo f).brg = s.brg :=
  ⟨rfl, rfl, rfl, rfl, rfl, rfl, rfl, rfl, rfl, rfl, rfl, rfl, rfl, rfl, rfl, rfl, rfl, rfl, rfl, rfl⟩
@[simp] theorem setHostIn_frame (k : Nat) (e : Ep) :
    (s.setHostIn k e).pending = s.pending ∧ (s.setHostIn k e).clock = s.clock ∧ (s.setHostIn k e).free = s.free ∧ (s.setHostIn k e).nodes = s.nodes ∧
    (s.setHostIn k e).routers = s.routers ∧ (s.setHostIn k e).flight = s.flight ∧ (s.setHostIn k e).nextPid = s.nextPid ∧ (s.setHostIn k e).lining = s.lining ∧
    (s.setHostIn k e).bolt = s.bolt ∧ (s.setHostIn k e).boltMeta = s.boltMeta ∧ (s.setHostIn k e).parts = s.parts ∧ (s.setHostIn k e).panels = s.panels ∧
    (s.setHostIn k e).stw = s.stw ∧ (s.setHostIn k e).hemA = s.hemA ∧ (s.setHostIn k e).hemB = s.hemB ∧ (s.setHostIn k e).hostMem = s.hostMem ∧
    (s.setHostIn k e).twin = s.twin ∧ (s.setHostIn k e).sec = s.sec ∧ (s.setHostIn k e).pow = s.pow ∧ (s.setHostIn k e).brg = s.brg :=
  ⟨rfl, rfl, rfl, rfl, rfl, rfl, rfl, rfl, rfl, rfl, rfl, rfl, rfl, rfl, rfl, rfl, rfl, rfl, rfl, rfl⟩
@[simp] theorem setHostOut_frame (p : Nat) (e : Ep) :
    (s.setHostOut p e).pending = s.pending ∧ (s.setHostOut p e).clock = s.clock ∧ (s.setHostOut p e).free = s.free ∧ (s.setHostOut p e).nodes = s.nodes ∧
    (s.setHostOut p e).routers = s.routers ∧ (s.setHostOut p e).flight = s.flight ∧ (s.setHostOut p e).nextPid = s.nextPid ∧ (s.setHostOut p e).lining = s.lining ∧
    (s.setHostOut p e).bolt = s.bolt ∧ (s.setHostOut p e).boltMeta = s.boltMeta ∧ (s.setHostOut p e).parts = s.parts ∧ (s.setHostOut p e).panels = s.panels ∧
    (s.setHostOut p e).stw = s.stw ∧ (s.setHostOut p e).hemA = s.hemA ∧ (s.setHostOut p e).hemB = s.hemB ∧ (s.setHostOut p e).hostMem = s.hostMem ∧
    (s.setHostOut p e).twin = s.twin ∧ (s.setHostOut p e).sec = s.sec ∧ (s.setHostOut p e).pow = s.pow ∧ (s.setHostOut p e).brg = s.brg :=
  ⟨rfl, rfl, rfl, rfl, rfl, rfl, rfl, rfl, rfl, rfl, rfl, rfl, rfl, rfl, rfl, rfl, rfl, rfl, rfl, rfl⟩
@[simp] theorem updSp_frame (k : Nat) (f : SpPort → SpPort) :
    (s.updSp k f).pending = s.pending ∧ (s.updSp k f).clock = s.clock ∧ (s.updSp k f).free = s.free ∧ (s.updSp k f).nodes = s.nodes ∧
    (s.updSp k f).routers = s.routers ∧ (s.updSp k f).flight = s.flight ∧ (s.updSp k f).nextPid = s.nextPid ∧ (s.updSp k f).lining = s.lining ∧
    (s.updSp k f).bolt = s.bolt ∧ (s.updSp k f).boltMeta = s.boltMeta ∧ (s.updSp k f).parts = s.parts ∧ (s.updSp k f).panels = s.panels ∧
    (s.updSp k f).stw = s.stw ∧ (s.updSp k f).hemA = s.hemA ∧ (s.updSp k f).hemB = s.hemB ∧ (s.updSp k f).io = s.io ∧
    (s.updSp k f).hostMem = s.hostMem ∧ (s.updSp k f).sec = s.sec ∧ (s.updSp k f).pow = s.pow ∧ (s.updSp k f).brg = s.brg :=
  ⟨rfl, rfl, rfl, rfl, rfl, rfl, rfl, rfl, rfl, rfl, rfl, rfl, rfl, rfl, rfl, rfl, rfl, rfl, rfl, rfl⟩
@[simp] theorem updStream_frame (n : Nat) (f : Stream → Stream) :
    (s.updStream n f).pending = s.pending ∧ (s.updStream n f).clock = s.clock ∧ (s.updStream n f).free = s.free ∧ (s.updStream n f).nodes = s.nodes ∧
    (s.updStream n f).routers = s.routers ∧ (s.updStream n f).flight = s.flight ∧ (s.updStream n f).nextPid = s.nextPid ∧ (s.updStream n f).lining = s.lining ∧
    (s.updStream n f).bolt = s.bolt ∧ (s.updStream n f).boltMeta = s.boltMeta ∧ (s.updStream n f).parts = s.parts ∧ (s.updStream n f).panels = s.panels ∧
    (s.updStream n f).stw = s.stw ∧ (s.updStream n f).hemA = s.hemA ∧ (s.updStream n f).hemB = s.hemB ∧ (s.updStream n f).io = s.io ∧
    (s.updStream n f).hostMem = s.hostMem ∧ (s.updStream n f).sec = s.sec ∧ (s.updStream n f).pow = s.pow ∧ (s.updStream n f).brg = s.brg :=
  ⟨rfl, rfl, rfl, rfl, rfl, rfl, rfl, rfl, rfl, rfl, rfl, rfl, rfl, rfl, rfl, rfl, rfl, rfl, rfl, rfl⟩
@[simp] theorem putFrame_frame (k v : Nat) (f : Frame) :
    (putFrame s k v f).pending = s.pending ∧ (putFrame s k v f).clock = s.clock ∧ (putFrame s k v f).free = s.free ∧ (putFrame s k v f).nodes = s.nodes ∧
    (putFrame s k v f).routers = s.routers ∧ (putFrame s k v f).flight = s.flight ∧ (putFrame s k v f).nextPid = s.nextPid ∧ (putFrame s k v f).lining = s.lining ∧
    (putFrame s k v f).bolt = s.bolt ∧ (putFrame s k v f).boltMeta = s.boltMeta ∧ (putFrame s k v f).parts = s.parts ∧ (putFrame s k v f).panels = s.panels ∧
    (putFrame s k v f).stw = s.stw ∧ (putFrame s k v f).hemA = s.hemA ∧ (putFrame s k v f).hemB = s.hemB ∧ (putFrame s k v f).io = s.io ∧
    (putFrame s k v f).hostMem = s.hostMem ∧ (putFrame s k v f).sec = s.sec ∧ (putFrame s k v f).pow = s.pow ∧ (putFrame s k v f).brg = s.brg :=
  ⟨rfl, rfl, rfl, rfl, rfl, rfl, rfl, rfl, rfl, rfl, rfl, rfl, rfl, rfl, rfl, rfl, rfl, rfl, rfl, rfl⟩
@[simp] theorem takeFree_frame :
    (s.takeFree.2).pending = s.pending ∧ (s.takeFree.2).clock = s.clock ∧ (s.takeFree.2).nodes = s.nodes ∧ (s.takeFree.2).routers = s.routers ∧
    (s.takeFree.2).flight = s.flight ∧ (s.takeFree.2).nextPid = s.nextPid ∧ (s.takeFree.2).lining = s.lining ∧ (s.takeFree.2).bolt = s.bolt ∧
    (s.takeFree.2).boltMeta = s.boltMeta ∧ (s.takeFree.2).parts = s.parts ∧ (s.takeFree.2).panels = s.panels ∧ (s.takeFree.2).stw = s.stw ∧
    (s.takeFree.2).hemA = s.hemA ∧ (s.takeFree.2).hemB = s.hemB ∧ (s.takeFree.2).io = s.io ∧ (s.takeFree.2).hostMem = s.hostMem ∧
    (s.takeFree.2).twin = s.twin ∧ (s.takeFree.2).sec = s.sec ∧ (s.takeFree.2).pow = s.pow ∧ (s.takeFree.2).brg = s.brg :=
  ⟨rfl, rfl, rfl, rfl, rfl, rfl, rfl, rfl, rfl, rfl, rfl, rfl, rfl, rfl, rfl, rfl, rfl, rfl, rfl, rfl⟩
/-- The active hem's update changes the two hem records alone, and no partition, node or memory. -/
@[simp] theorem updHem_frame (f : HostHem → HostHem) :
    (s.updHem f).nodes = s.nodes ∧ (s.updHem f).routers = s.routers ∧ (s.updHem f).flight = s.flight ∧ (s.updHem f).parts = s.parts ∧
    (s.updHem f).panels = s.panels ∧ (s.updHem f).stw = s.stw ∧ (s.updHem f).io = s.io ∧ (s.updHem f).hostMem = s.hostMem ∧
    (s.updHem f).lining = s.lining ∧ (s.updHem f).bolt = s.bolt ∧ (s.updHem f).twin = s.twin ∧ (s.updHem f).sec = s.sec ∧
    (s.updHem f).pow = s.pow ∧ (s.updHem f).brg = s.brg ∧ (s.updHem f).pending = s.pending ∧ (s.updHem f).clock = s.clock := by
  unfold State.updHem
  split <;> exact ⟨rfl, rfl, rfl, rfl, rfl, rfl, rfl, rfl, rfl, rfl, rfl, rfl, rfl, rfl, rfl, rfl⟩
@[simp] theorem hem_updHem (f : HostHem → HostHem) : (s.updHem f).hem = f s.hem := by
  unfold State.updHem State.hem
  split <;> simp [*]

/-! ### Reading back -/

@[simp] theorem node_setNode_self (n : NodeId) (d : Node) : (s.setNode n d).node n = d := table_get_put_self _ _ _ _
theorem node_setNode_ne {n m : NodeId} (d : Node) (h : m ≠ n) : (s.setNode n d).node m = s.node m := table_get_put_ne _ _ _ h
@[simp] theorem node_updNode_self (n : NodeId) (f : Node → Node) : (s.updNode n f).node n = f (s.node n) := table_get_put_self _ _ _ _
theorem node_updNode_ne {n m : NodeId} (f : Node → Node) (h : m ≠ n) : (s.updNode n f).node m = s.node m := table_get_put_ne _ _ _ h
theorem node_updNode (n m : NodeId) (f : Node → Node) : (s.updNode n f).node m = if m = n then f (s.node n) else s.node m :=
  table_get_put _ _ _ _ _
/-- A state with the same nodes has the same node. -/
theorem node_congr {s t : State} (h : t.nodes = s.nodes) (n : NodeId) : t.node n = s.node n := by rw [State.node, State.node, h]

@[simp] theorem part_setPart_self (p : Nat) (x : Partition) : (s.setPart p x).part p = x := table_get_put_self _ _ _ _
theorem part_setPart_ne {p q : Nat} (x : Partition) (h : q ≠ p) : (s.setPart p x).part q = s.part q := table_get_put_ne _ _ _ h
@[simp] theorem part_updPart_self (p : Nat) (f : Partition → Partition) : (s.updPart p f).part p = f (s.part p) := table_get_put_self _ _ _ _
theorem part_updPart_ne {p q : Nat} (f : Partition → Partition) (h : q ≠ p) : (s.updPart p f).part q = s.part q := table_get_put_ne _ _ _ h
@[simp] theorem panel_updPanel_self (p : Nat) (f : Panel → Panel) : (s.updPanel p f).panel p = f (s.panel p) := table_get_put_self _ _ _ _
theorem panel_updPanel_ne {p q : Nat} (f : Panel → Panel) (h : q ≠ p) : (s.updPanel p f).panel q = s.panel q := table_get_put_ne _ _ _ h
@[simp] theorem router_updRouter_self (r : NodeId) (f : Router → Router) : (s.updRouter r f).router r = f (s.router r) := table_get_put_self _ _ _ _
theorem router_updRouter_ne {r q : NodeId} (f : Router → Router) (h : q ≠ r) : (s.updRouter r f).router q = s.router q :=
  table_get_put_ne _ _ _ h
@[simp] theorem port_updPort_self (x : Router) (p : Nat) (f : Port → Port) : (x.updPort p f).port p = f (x.port p) := table_get_put_self _ _ _ _
theorem port_updPort_ne (x : Router) {p q : Nat} (f : Port → Port) (h : q ≠ p) : (x.updPort p f).port q = x.port q := table_get_put_ne _ _ _ h
@[simp] theorem spPort_updSp_self (k : Nat) (f : SpPort → SpPort) : (s.updSp k f).spPort k = f (s.spPort k) := table_get_put_self _ _ _ _
theorem spPort_updSp_ne {k j : Nat} (f : SpPort → SpPort) (h : j ≠ k) : (s.updSp k f).spPort j = s.spPort j := table_get_put_ne _ _ _ h
@[simp] theorem stream_updStream_self (k : Nat) (f : Stream → Stream) : (s.updStream k f).stream k = f (s.stream k) := table_get_put_self _ _ _ _
theorem stream_updStream_ne {k j : Nat} (f : Stream → Stream) (h : j ≠ k) : (s.updStream k f).stream j = s.stream j := table_get_put_ne _ _ _ h
@[simp] theorem fn_updFn_self (f : Nat) (g : HostFn → HostFn) : (s.updFn f g).fn f = g (s.fn f) := by
  unfold State.updFn State.fn
  rw [hem_updHem]
  exact table_get_put_self _ _ _ _
theorem fn_updFn_ne {f k : Nat} (g : HostFn → HostFn) (h : k ≠ f) : (s.updFn f g).fn k = s.fn k := by
  unfold State.updFn State.fn
  rw [hem_updHem]
  exact table_get_put_ne _ _ _ h

/-! ### Nodes, endpoints and cores -/

@[simp] theorem inEp_setIn_self (nd : Node) (e : Nat) (x : Ep) : (nd.setIn e x).inEp e = x := table_get_put_self _ _ _ _
theorem inEp_setIn_ne (nd : Node) {e k : Nat} (x : Ep) (h : k ≠ e) : (nd.setIn e x).inEp k = nd.inEp k := table_get_put_ne _ _ _ h
@[simp] theorem outEp_setOut_self (nd : Node) (e : Nat) (x : Ep) : (nd.setOut e x).outEp e = x := table_get_put_self _ _ _ _
theorem outEp_setOut_ne (nd : Node) {e k : Nat} (x : Ep) (h : k ≠ e) : (nd.setOut e x).outEp k = nd.outEp k := table_get_put_ne _ _ _ h
@[simp] theorem outEp_setIn (nd : Node) (e k : Nat) (x : Ep) : (nd.setIn e x).outEp k = nd.outEp k := rfl
@[simp] theorem inEp_setOut (nd : Node) (e k : Nat) (x : Ep) : (nd.setOut e x).inEp k = nd.inEp k := rfl

theorem tile_setTile (c : Core) (i j : Nat) (t : Tile) : (c.setTile i t).tile j = if j % 16 = i % 16 then t else c.tile j :=
  table_get_put _ _ _ _ _
theorem scalar_setScalar (c : Core) (i j : Nat) (v : U64) : (c.setScalar i v).scalar j = if j = i then v else c.scalar j :=
  table_get_put _ _ _ _ _
theorem pred_setPred (c : Core) (i j : Nat) (p : Pred) : (c.setPred i p).pred j = if j % 8 = i % 8 then p else c.pred j :=
  table_get_put _ _ _ _ _
@[simp] theorem scalar_setTile (c : Core) (i j : Nat) (t : Tile) : (c.setTile i t).scalar j = c.scalar j := rfl
@[simp] theorem pred_setTile (c : Core) (i j : Nat) (t : Tile) : (c.setTile i t).pred j = c.pred j := rfl
@[simp] theorem tile_setScalar (c : Core) (i j : Nat) (v : U64) : (c.setScalar i v).tile j = c.tile j := rfl
@[simp] theorem pred_setScalar (c : Core) (i j : Nat) (v : U64) : (c.setScalar i v).pred j = c.pred j := rfl
@[simp] theorem tile_setPred (c : Core) (i j : Nat) (p : Pred) : (c.setPred i p).tile j = c.tile j := rfl
@[simp] theorem scalar_setPred (c : Core) (i j : Nat) (p : Pred) : (c.setPred i p).scalar j = c.scalar j := rfl

/-- A recorded fault stops issue and vetoes the step, whatever else it records; the first record stays (R110, R151, R316). -/
theorem raiseWith_effect (nd : Node) (code : Nat) (fs : List (Nat × Nat)) (loc : U64) (tag : Nat) :
    (nd.raiseWith code fs loc tag).halted = true ∧ (nd.raiseWith code fs loc tag).pat.veto = true ∧
    (nd.raiseWith code fs loc tag).core = nd.core ∧ (nd.raiseWith code fs loc tag).mc = nd.mc ∧ (nd.raiseWith code fs loc tag).ln = nd.ln ∧
    (nd.raiseWith code fs loc tag).pad = nd.pad ∧ (nd.raiseWith code fs loc tag).ins = nd.ins ∧ (nd.raiseWith code fs loc tag).outs = nd.outs ∧
    (nd.raiseWith code fs loc tag).fault = (if bit nd.fault 63 then nd.fault else faultWord code fs) :=
  ⟨rfl, rfl, rfl, rfl, rfl, rfl, rfl, rfl, rfl⟩

end Sys2Proof.Laws
end

