-- ==== Sys2Proof/Laws/Ops.lean ====
section
/-! SUPPORT. The shared operations: when each answers a next state and which, elements of tiles, and scratchpad reads and writes. -/

namespace Sys2Proof.Laws
open Sys2Proof Sys2Proof.Machine

/-! ### Fields and bytes -/

theorem fld_lt {w : Nat} (x : BitVec w) (hi lo : Nat) : fld x hi lo < 2 ^ (hi + 1 - lo) := Nat.mod_lt _ (Nat.two_pow_pos _)

@[simp] theorem leBytes_length (n v : Nat) : (leBytes n v).length = n := by
  induction n generalizing v with
  | zero => rfl
  | succ n ih => simp [leBytes, ih]

theorem leNat_leBytes (n v : Nat) : leNat (leBytes n v) = v % 256 ^ n := by
  induction n generalizing v with
  | zero => simp [leBytes, leNat, Nat.mod_one]
  | succ n ih =>
    rw [leBytes, leNat, ih, BitVec.toNat_ofNat, show (2 : Nat) ^ 8 = 256 from rfl, pow_succ, mul_comm (256 ^ n) 256, Nat.mod_mul]

/-! ### Elements of a tile (R112) -/

theorem packElems_lt (w : Nat) (l : List Nat) : packElems w l < 2 ^ (w * l.length) := by
  induction l with
  | nil => simp [packElems]
  | cons x t ih =>
    have hx : x % 2 ^ w < 2 ^ w := Nat.mod_lt _ (Nat.two_pow_pos w)
    simp only [packElems, List.length_cons]
    rw [show w * (t.length + 1) = w + w * t.length by ring, pow_add]
    calc x % 2 ^ w + 2 ^ w * packElems w t < 2 ^ w + 2 ^ w * packElems w t := by omega
      _ = 2 ^ w * (packElems w t + 1) := by ring
      _ ≤ 2 ^ w * 2 ^ (w * t.length) := Nat.mul_le_mul_left _ ih

theorem packElems_get (w : Nat) (l : List Nat) (i : Nat) : (packElems w l >>> (w * i)) % 2 ^ w = (l.getD i 0) % 2 ^ w := by
  induction l generalizing i with
  | nil => simp [packElems]
  | cons x t ih =>
    cases i with
    | zero => simp [packElems]
    | succ i =>
      rw [show w * (i + 1) = w + w * i by ring, Nat.shiftRight_add, List.getD_cons_succ, ← ih i]
      congr 2
      rw [Nat.shiftRight_eq_div_pow]
      simp only [packElems]
      rw [Nat.add_mul_div_left _ _ (Nat.two_pow_pos w), Nat.div_eq_of_lt (Nat.mod_lt _ (Nat.two_pow_pos w)), zero_add]

/-- Element i of a tile put together from a list that fills it. -/
theorem element_tileOf {w : Nat} {l : List Nat} (hl : w * l.length ≤ 32768) (i : Nat) :
    element w (tileOf w l) i = (l.getD i 0) % 2 ^ w := by
  unfold element tileOf
  rw [BitVec.toNat_ofNat, Nat.mod_eq_of_lt (lt_of_lt_of_le (packElems_lt w l) (Nat.pow_le_pow_right (by decide) hl))]
  exact packElems_get w l i

@[simp] theorem elems_length (w : Nat) (t : Tile) : (elems w t).length = 32768 / w := by simp [elems]

theorem elems_getElem? (w : Nat) (t : Tile) {i : Nat} (h : i < 32768 / w) : (elems w t)[i]? = some (element w t i) := by
  simp [elems, element, h]

theorem element_lt (w : Nat) (t : Tile) (i : Nat) : element w t i < 2 ^ w := Nat.mod_lt _ (Nat.two_pow_pos w)

/-! ### When a command answers a next state -/

theorem onNode_eq {ks : List Kind} {n : NodeId} (h : isNode ks n = true) (s : State) (f : State → State) : onNode ks n s f = .next (f s) := by
  unfold onNode
  rw [if_pos (by simpa [isNode] using h)]

theorem onNode_next {ks : List Kind} {n : NodeId} {s t : State} {f : State → State} (h : onNode ks n s f = .next t) :
    isNode ks n = true ∧ t = f s := by
  unfold onNode at h
  split at h
  · rename_i hn
    cases h
    exact ⟨hn, rfl⟩
  · cases h

/-- The frame of V and F instructions where the core may issue and the word is good: the instruction's own effect (R114, R221). -/
theorem vIssue_ready {n : NodeId} {s : State} (h : vReady n s) (f : Node → State → Issued) :
    vIssue n s true true f = .next (finishIssue n (f (s.node n) s)) := by
  obtain ⟨hn, hc, hp⟩ := h
  unfold vIssue
  rw [onNode_eq hn]
  simp only [hc, if_true, if_neg (Nat.not_le.2 hp), Bool.not_true, Bool.false_eq_true, if_false]

/-- A core that may not issue is left as it is. -/
theorem vIssue_idle {n : NodeId} {s : State} (hn : isVec n = true) (hc : (s.node n).canIssue = false) (a b : Bool) (f : Node → State → Issued) :
    vIssue n s a b f = .next s := by
  unfold vIssue
  rw [onNode_eq hn]
  simp [hc]

theorem vIssue_next {n : NodeId} (h : isVec n = true) (s : State) (a b : Bool) (f : Node → State → Issued) : ∃ t, vIssue n s a b f = .next t := by
  unfold vIssue
  rw [onNode_eq h]
  exact ⟨_, rfl⟩

/-- A completed instruction: the node's own change, then its retirement (R111, R253). -/
theorem finishIssue_coreDone (n : NodeId) (s : State) (charge : Nat) (jump : Option Nat) (f : Core → Core) :
    finishIssue n (coreDone n s charge jump f) =
      (s.updNode n (fun nd => { nd with core := f nd.core })).updNode n (fun nd => nd.retire charge jump) := rfl

theorem startEntry_next {f r : Nat} (h : ringOk f r = true) {op : Nat} {go} {s : State} : ∃ t, startEntry f r op go s = .next t := by
  unfold startEntry
  simp only [h, Bool.not_true, Bool.false_eq_true, if_false]
  split
  · exact ⟨_, rfl⟩
  · split <;> exact ⟨_, rfl⟩

theorem onFrame_next {ty p : Nat} {f : Frame} {s : State} {g : State → State} (h : isFrame ty p f = true) : ∃ t, onFrame ty p f s g = .next t := by
  simp only [isFrame, isPort, Bool.and_eq_true, decide_eq_true_eq, beq_iff_eq] at h
  unfold onFrame
  rw [if_neg (by omega), if_neg (by omega)]
  exact ⟨_, rfl⟩

theorem service_next {n ep : Nat} (h : isService n ep = true) {s : State} {o : Nat → Bool} {f} : ∃ t, service n ep s o f = .next t := by
  simp only [isService, isL, isNode, Bool.and_eq_true, decide_eq_true_eq] at h
  unfold service
  rw [if_neg (by simpa using h)]
  exact ⟨_, rfl⟩

theorem onObject_next {h : ReqHdr} (hw : whoOk h.who = true) {i j : Nat} {s : State} {act} : ∃ t, onObject h i j s act = .next t := by
  unfold onObject
  simp only [hw, Bool.not_true, Bool.false_eq_true, if_false]
  exact ⟨_, rfl⟩

/-! ### The scratchpad (R159, R164) -/

theorem mem_linesOf {a n l : Nat} : l ∈ linesOf a n ↔ n ≠ 0 ∧ a / 64 ≤ l ∧ l ≤ (a + n - 1) / 64 := by
  unfold linesOf
  split
  · simp [*]
  · rename_i hn
    have : a / 64 ≤ (a + n - 1) / 64 := Nat.div_le_div_right (by omega)
    rw [mem_rangeFrom]
    omega

theorem foldl_setIns_mem {ls v : List Nat} {x : Nat} : x ∈ ls.foldl setIns v ↔ x ∈ ls ∨ x ∈ v := by
  induction ls generalizing v with
  | nil => simp
  | cons a t ih =>
    rw [List.foldl_cons, ih, mem_setIns, List.mem_cons]
    tauto

theorem wf_foldl_zero {ls : List Nat} {m : Memory} (h : m.wf = true) :
    Memory.wf (ls.foldl (fun m l => Memory.zero m (64 * l) 64) m) = true := by
  induction ls generalizing m with
  | nil => exact h
  | cons a t ih => exact ih (memory_wf_zero h _ _)

theorem byte_foldl_zero {ls : List Nat} {m : Memory} (h : m.wf = true) (x : Nat) :
    Memory.byte (ls.foldl (fun m l => Memory.zero m (64 * l) 64) m) x = if x / 64 ∈ ls then 0 else m.byte x := by
  induction ls generalizing m with
  | nil => simp
  | cons a t ih =>
    rw [List.foldl_cons, ih (memory_wf_zero h _ _), memory_byte_zero h]
    simp only [List.mem_cons]
    split
    · rw [if_pos (.inr ‹_›)]
    · split
      · rw [if_pos (.inl (by omega))]
      · rw [if_neg]
        rintro (hx | hx)
        · omega
        · exact absurd hx ‹_›

/-- A scratchpad write keeps its bytes in the canonical form. -/
theorem pad_write_wf {p : Pad} (h : p.bytes.wf = true) (a : Nat) (bs : List Byte) : (p.write a bs).bytes.wf = true :=
  memory_wf_write (wf_foldl_zero h) a bs

/-- A scratchpad write reads back. -/
theorem pad_byteAt_write_inside {p : Pad} (h : p.bytes.wf = true) (a i : Nat) (bs : List Byte) (hi : i < bs.length) :
    (p.write a bs).byteAt (a + i) = bs.getD i 0 := by
  have hv : (p.write a bs).valid.contains ((a + i) / 64) = true := by
    simp only [Pad.write, List.contains_iff_mem]
    rw [foldl_setIns_mem, mem_linesOf]
    exact .inl ⟨by omega, by omega, Nat.div_le_div_right (by omega)⟩
  unfold Pad.byteAt
  rw [if_pos hv]
  refine memory_byte_write_inside (wf_foldl_zero h) a i bs ?_
  rw [List.getD_eq_getElem?_getD, List.getElem?_eq_getElem hi]
  rfl

/-- A scratchpad write leaves every other byte reading as before (R164). -/
theorem pad_byteAt_write_outside {p : Pad} (h : p.bytes.wf = true) (a b : Nat) (bs : List Byte) (hb : b < a ∨ a + bs.length ≤ b) :
    (p.write a bs).byteAt b = p.byteAt b := by
  unfold Pad.byteAt
  have e : (p.write a bs).bytes.byte b = if b / 64 ∈ (linesOf a bs.length).filter (fun l => !p.valid.contains l) then 0 else p.bytes.byte b := by
    rw [← byte_foldl_zero h]
    exact memory_byte_write_outside (wf_foldl_zero h) a b bs hb
  rw [e]
  simp only [Pad.write, List.contains_iff_mem, foldl_setIns_mem, List.mem_filter, Bool.not_eq_true']
  by_cases hl : b / 64 ∈ linesOf a bs.length <;> by_cases hv : b / 64 ∈ p.valid <;> simp [hl, hv]

end Sys2Proof.Laws
end

section
/-! PROOF. V and F core instructions that complete: what the retirement of one leaves, and the scalar instructions (R111, R231, R253, R680). -/

namespace Sys2Proof.Proofs
open Sys2Proof Sys2Proof.Machine Sys2Proof.Laws

/-! ### An instruction that completes -/

/-- A core as retirement with k core cycles leaves it (R111, R253). -/
def retiredCore (k : Nat) (c : Core) : Core :=
  { c with pc := c.pc + 1, issueCycles := satAdd c.issueCycles k, retired := satAdd c.retired 1, blocked := none }

@[simp] theorem tile_retiredCore (k : Nat) (c : Core) (r : Nat) : (retiredCore k c).tile r = c.tile r := rfl
@[simp] theorem scalar_retiredCore (k : Nat) (c : Core) (r : Nat) : (retiredCore k c).scalar r = c.scalar r := rfl
@[simp] theorem pred_retiredCore (k : Nat) (c : Core) (r : Nat) : (retiredCore k c).pred r = c.pred r := rfl

/-- A change of a core leaves alone what retirement counts. -/
def KeepsIssue (g : Core → Core) : Prop :=
  ∀ c, (g c).pc = c.pc ∧ (g c).issueCycles = c.issueCycles ∧ (g c).retired = c.retired

/-- The change g of core n and its retirement are all that lies between s and t. -/
def completes (n : NodeId) (k : Nat) (g : Core → Core) (s t : State) : Prop :=
  retires n k (nextPc n s) s t ∧ onlyCore n s t ∧ (t.node n).core = retiredCore k (g (s.node n).core)

theorem node_finishIssue_coreDone (n : NodeId) (s : State) (k : Nat) (g : Core → Core) :
    (finishIssue n (coreDone n s k none g)).node n = ({ s.node n with core := g (s.node n).core } : Node).retire k none := by
  rw [finishIssue_coreDone, node_updNode_self, node_updNode_self]

theorem otherNodes_finishIssue_coreDone (n : NodeId) (s : State) (k : Nat) (g : Core → Core) :
    otherNodes n s (finishIssue n (coreDone n s k none g)) := fun m hm => by
  rw [finishIssue_coreDone, node_updNode_ne _ _ hm, node_updNode_ne _ _ hm]

theorem completes_finishIssue {g : Core → Core} (hg : KeepsIssue g) (n : NodeId) (s : State) (k : Nat) :
    completes n k g s (finishIssue n (coreDone n s k none g)) := by
  obtain ⟨hpc, hcycles, hretired⟩ := hg (s.node n).core
  unfold completes retires onlyCore onlyNode
  rw [node_finishIssue_coreDone]
  refine ⟨⟨congrArg (· + 1) hpc, congrArg (satAdd · k) hcycles, congrArg (satAdd · 1) hretired, rfl, rfl⟩, ⟨⟨rfl, ?_⟩, rfl⟩, rfl⟩
  exact otherNodes_finishIssue_coreDone n s k g

/-- A ready core completes an instruction that only changes its core (R114, R116, R253). -/
theorem exec_completes {n : NodeId} {s : State} {x : Instr} {ok : Bool} {k : Nat} {g : Node → Core → Core} (h : vReady n s)
    (hx : exec x s = vIssue n s true ok (fun nd s => coreDone n s k none (g nd))) (hok : ok = true) (hg : KeepsIssue (g (s.node n))) :
    ∃ t, exec x s = .next t ∧ completes n k (g (s.node n)) s t := by
  refine ⟨_, ?_, completes_finishIssue hg n s k⟩
  rw [hx, hok, vIssue_ready h]

/-- A core that may issue is not blocked. -/
theorem vReady_blocked {n : NodeId} {s : State} (h : vReady n s) : (s.node n).core.blocked = none := by
  obtain ⟨-, hcan, -⟩ := h
  simp only [Node.canIssue, Bool.and_eq_true, Option.isNone_iff_eq_none] at hcan
  obtain ⟨⟨-, hblocked⟩, -⟩ := hcan
  exact hblocked

/-! ### Register writes -/

theorem sameTiles_setTile (but : List Nat) (c : Core) (r : Nat) (x : Tile) (h : r % 16 ∈ but) : sameTiles but c (c.setTile r x) := by
  intro q hq hne
  rw [tile_setTile, if_neg]
  rw [Nat.mod_eq_of_lt hq]
  rintro rfl
  exact hne h

theorem sameScalars_setScalar (c : Core) (r : Nat) (v : U64) : sameScalars [r] c (c.setScalar r v) := by
  intro q _ hne
  rw [scalar_setScalar, if_neg (by simpa using hne)]

theorem samePreds_setPred (c : Core) (r : Nat) (p : Pred) : samePreds [r % 8] c (c.setPred r p) := by
  intro q hq hne
  rw [pred_setPred, if_neg (by simpa [Nat.mod_eq_of_lt hq] using hne)]

/-- A completed instruction of core n, charged k core cycles, that writes y to scalar register r and nothing else of the core. -/
def scalarResult (n : NodeId) (k r y : Nat) (s t : State) : Prop :=
  let c := (s.node n).core
  let d := (t.node n).core
  (d.scalar r).toNat = y ∧ retires n k (nextPc n s) s t ∧ onlyCore n s t ∧ onlyFiles c d ∧ sameScalars [r] c d ∧ sameTiles [] c d ∧ samePreds [] c d

theorem exec_setScalar {n : NodeId} {s : State} {x : Instr} {ok : Bool} {k r y : Nat} (v : Node → Core → U64) (h : vReady n s)
    (hx : exec x s = vIssue n s true ok (fun nd s => coreDone n s k none (fun c => c.setScalar r (v nd c)))) (hok : ok = true)
    (hv : (v (s.node n) (s.node n).core).toNat = y) : ∃ t, exec x s = .next t ∧ scalarResult n k r y s t := by
  obtain ⟨t, ht, hret, honly, hcore⟩ := exec_completes h hx hok (fun _ => ⟨rfl, rfl, rfl⟩)
  unfold scalarResult
  refine ⟨t, ht, ?_, hret, honly, ?_⟩
  · rw [hcore, scalar_retiredCore, scalar_setScalar, if_pos rfl, hv]
  · rw [hcore]
    exact ⟨rfl, sameScalars_setScalar _ _ _, fun _ _ _ => rfl, fun _ _ _ => rfl⟩

/-- The instructions sD := f sA sB (R680). -/
theorem exec_sclOp {n : NodeId} {w : VWord} {s : State} {x : Instr} {y : Nat} (f : U64 → U64 → U64) (h : vReady n s)
    (hx : exec x s = sclOp n w s f) (hv : (f ((s.node n).core.scalar (vA w)) ((s.node n).core.scalar (vB w))).toNat = y) :
    ∃ t, exec x s = .next t ∧ scalarResult n 1 (vD w) y s t :=
  exec_setScalar (fun nd _ => f (nd.core.scalar (vA w)) (nd.core.scalar (vB w))) h hx rfl hv

/-! ### Values of the scalar instructions -/

theorem toNat_eq_toInt_emod {w : Nat} (x : BitVec w) : x.toNat = (x.toInt % 2 ^ w).toNat := by
  have h := congrArg BitVec.toNat (BitVec.ofInt_toInt (x := x))
  rw [BitVec.toNat_ofInt] at h
  exact_mod_cast h.symm

theorem toNat_sub_eq (a b : U64) : (a - b).toNat = (a.toNat + (2 ^ 64 - b.toNat)) % 2 ^ 64 := by
  rw [BitVec.toNat_sub, Nat.add_comm]

theorem toNat_shiftLeft_eq (a : U64) (k : Nat) : (a <<< k).toNat = a.toNat * 2 ^ k % 2 ^ 64 := by
  rw [BitVec.toNat_shiftLeft, Nat.shiftLeft_eq]

theorem toNat_shiftRight_eq (a : U64) (k : Nat) : (a >>> k).toNat = a.toNat / 2 ^ k := by
  rw [BitVec.toNat_ushiftRight, Nat.shiftRight_eq_div_pow]

theorem toNat_sshiftRight_eq (a : U64) (k : Nat) : (a.sshiftRight k).toNat = (a.toInt / 2 ^ k % 2 ^ 64).toNat := by
  rw [toNat_eq_toInt_emod, BitVec.toInt_sshiftRight, Int.shiftRight_eq_div_pow]
  push_cast
  rfl

theorem toInt_ofNat_eq_sgn (v : Nat) : (BitVec.ofNat 24 v).toInt = sgn 24 v := by
  rw [BitVec.toInt_eq_toNat_cond, BitVec.toNat_ofNat, sgn]
  norm_num
  split <;> split <;> omega

theorem toNat_signExtend_eq (v : Nat) : ((BitVec.ofNat 24 v).signExtend 64).toNat = (sgn 24 v % 2 ^ 64).toNat := by
  rw [toNat_eq_toInt_emod, BitVec.toInt_signExtend_of_le (by decide), toInt_ofNat_eq_sgn]

/-- MOVHI's field replacement by the parts of the register above, in and below the field. -/
theorem toNat_setFld_eq (a : U64) {v : Nat} (hv : v < 2 ^ 24) :
    (setFld a 47 24 v).toNat = a.toNat / 2 ^ 48 * 2 ^ 48 + v * 2 ^ 24 + a.toNat % 2 ^ 24 := by
  have ha : a.toNat < 2 ^ 64 := a.isLt
  simp only [setFld, BitVec.toNat_ofNat, Nat.shiftLeft_eq, Nat.shiftRight_eq_div_pow]
  norm_num at ha hv ⊢
  omega

theorem vImm_lt (w : VWord) : vImm w < 2 ^ 24 := fld_lt w 23 0

end Sys2Proof.Proofs
end

section
/-! PROOF. Tile instructions: the elements a masked write leaves, and integer results (R112, R117, R120, R121). -/

namespace Sys2Proof.Proofs
open Sys2Proof Sys2Proof.Machine Sys2Proof.Laws

/-! ### Element lists over the positions of a view -/

theorem elems_eq_map (w : Nat) (t : Tile) : elems w t = (List.range (32768 / w)).map (element w t) := rfl
theorem actives_eq_map (w : Nat) (p : Pred) : actives w p = (List.range (32768 / w)).map (active w p) := rfl

theorem writeMask_eq_map (w : Nat) (word : VWord) (c : Core) :
    writeMask w word c = (List.range (32768 / w)).map (written w word c) := by
  unfold writeMask written
  cases vPen word <;> rfl

theorem getD_map_range {α : Type} (f : Nat → α) (d : α) {N i : Nat} (hi : i < N) : ((List.range N).map f).getD i d = f i := by
  rw [List.getD_eq_getElem?_getD, List.getElem?_map, List.getElem?_range hi]
  rfl

/-- Element i of a tile put together position by position (R112). -/
theorem element_tileOf_map (w : Nat) (v : Nat → Nat) {i : Nat} (hi : i < 32768 / w) :
    element w (tileOf w ((List.range (32768 / w)).map v)) i = v i % 2 ^ w := by
  rw [element_tileOf (by simpa using Nat.mul_div_le 32768 w), getD_map_range v 0 hi]

/-! ### The masked write of a tile -/

theorem maskElems_map (w : Nat) (m : Nat → Bool) (old : Tile) (new : Nat → Nat) :
    maskElems w ((List.range (32768 / w)).map m) old ((List.range (32768 / w)).map new) =
      tileOf w ((List.range (32768 / w)).map (fun i => if m i then new i else element w old i)) := by
  rw [maskElems, elems_eq_map, List.zip_map', List.zipWith_map, List.zipWith_self]

/-- A tile write leaves each unwritten element as it was and counts the written elements that are marked (R117, R121). -/
theorem writeTile_map (word : VWord) (w : Nat) (c : Core) (res : Nat → Nat) (ev : Nat → Bool) :
    writeTile word w c ((List.range (32768 / w)).map (fun i => (res i, ev i))) =
      { c.setTile (vD word) (tileOf w ((List.range (32768 / w)).map (fun i =>
          if written w word c i then res i else element w (c.tile (vD word)) i))) with
        satEvents := satAdd c.satEvents ((List.range (32768 / w)).countP (fun i => written w word c i && ev i)) } := by
  rw [← maskElems_map]
  simp only [writeTile, writeMask_eq_map, List.zip_map', List.countP_map, List.map_map]
  rfl

/-- An instruction that writes its tile result under PEN: every element is its result or stays, and nothing else of the core changes. -/
theorem exec_writeTile {n : NodeId} {w : VWord} {s : State} {x : Instr} {ok : Bool} {ew occ : Nat} (res : Nat → Nat) (ev : Nat → Bool)
    (l : Node → List (Nat × Bool)) (h : vReady n s)
    (hx : exec x s = vIssue n s true ok (fun nd s => coreDone n s (tileCharge n occ) none (fun c => writeTile w ew c (l nd))))
    (hok : ok = true) (hl : l (s.node n) = (List.range (32768 / ew)).map (fun i => (res i, ev i)))
    (hlt : ∀ i, i < 32768 / ew → res i < 2 ^ ew) : ∃ t, exec x s = .next t ∧ tileResult n w ew occ res ev s t := by
  obtain ⟨t, ht, hret, honly, hcore⟩ := exec_completes h hx hok (fun _ => ⟨rfl, rfl, rfl⟩)
  simp only [hl, writeTile_map] at hcore
  refine ⟨t, ht, hret, honly, ?_, ?_, ?_⟩
  · rw [hcore]
    simp only [retiredCore, Core.setTile, vReady_blocked h]
  · rw [hcore]
    exact sameTiles_setTile _ _ _ _ (List.mem_singleton.2 rfl)
  · intro i hi
    have htile : (t.node n).core.tile (vD w) = tileOf ew ((List.range (32768 / ew)).map (fun i =>
        if written ew w (s.node n).core i then res i else element ew ((s.node n).core.tile (vD w)) i)) := by
      rw [hcore]
      exact (tile_setTile _ _ _ _).trans (if_pos rfl)
    rw [htile, element_tileOf_map ew _ hi]
    apply Nat.mod_eq_of_lt
    split
    · exact hlt i hi
    · exact element_lt _ _ _

/-! ### Instructions computed element by element -/

theorem tileOp_eq (n : NodeId) (w : VWord) (occ : Nat) (f : Nat → Nat → Nat → Nat × Bool) :
    tileOp n w occ f = fun nd s => coreDone n s (tileCharge n occ) none (fun c => writeTile w (etW (vEt w)) c
      ((List.range (32768 / etW (vEt w))).map (fun i => f (element (etW (vEt w)) (nd.core.tile (vA w)) i)
        (element (etW (vEt w)) (nd.core.tile (vB w)) i) (element (etW (vEt w)) (nd.core.tile (vC w)) i)))) := by
  funext nd s
  simp only [tileOp, elems_eq_map, List.zip_map', List.zipWith_map, List.zipWith_self]

/-- An element-by-element instruction on tA, tB and tC (R112, R117). -/
theorem exec_tileOp {n : NodeId} {w : VWord} {s : State} {x : Instr} {ok : Bool} {occ : Nat} {res : Nat → Nat} {ev : Nat → Bool}
    (f : Nat → Nat → Nat → Nat × Bool) (h : vReady n s) (hx : exec x s = vIssue n s true ok (tileOp n w occ f)) (hok : ok = true)
    (hres : ∀ i, f (element (etW (vEt w)) ((s.node n).core.tile (vA w)) i) (element (etW (vEt w)) ((s.node n).core.tile (vB w)) i)
      (element (etW (vEt w)) ((s.node n).core.tile (vC w)) i) = (res i, ev i))
    (hlt : ∀ i, res i < 2 ^ etW (vEt w)) : ∃ t, exec x s = .next t ∧ tileResult n w (etW (vEt w)) occ res ev s t := by
  rw [tileOp_eq] at hx
  exact exec_writeTile res ev _ h hx hok (congrArg (fun r => List.map r _) (funext hres)) (fun i _ => hlt i)

/-- Without a failing lane a residue-checked instruction issues as any other (R127, R128). -/
theorem vResidue_none (n : NodeId) (s : State) (ok : Bool) (f : Node → State → Issued) : vResidue n s none ok f = vIssue n s true ok f := rfl

/-! ### Exact integer results, wrapped or clamped (R120, R121) -/

theorem intCode_lt (w : Nat) (v : Int) : intCode w v < 2 ^ w := by
  have hpos : (0 : Int) < 2 ^ w := by positivity
  have h0 := Int.emod_nonneg v hpos.ne'
  have h1 := Int.emod_lt_of_pos v hpos
  unfold intCode
  zify
  rwa [Int.toNat_of_nonneg h0]

theorem elMin_le_elMax (et : Nat) : elMin et ≤ elMax et := by
  have h1 : (0 : Int) < 2 ^ (etW et - 1) := by positivity
  have h2 : (0 : Int) < 2 ^ etW et := by positivity
  unfold elMin elMax
  split <;> omega

/-- A value differs from its clamped value just when it lies outside the range. -/
theorem clamp_ne_iff {lo hi v : Int} (h : lo ≤ hi) : max lo (min hi v) ≠ v ↔ v < lo ∨ hi < v := by omega

theorem fitInt_eq (et : Nat) (sat : Bool) (v : Int) :
    fitInt et sat v = (inElement et sat v, sat && (decide (v < elMin et) || decide (elMax et < v))) := by
  cases sat with
  | false => rfl
  | true =>
    simp only [fitInt, inElement, intCode, if_true, Bool.true_and, clamp_ne_iff (elMin_le_elMax et), Bool.decide_or]

theorem inElement_lt (et : Nat) (sat : Bool) (v : Int) : inElement et sat v < 2 ^ etW et := by
  unfold inElement
  exact intCode_lt _ _

/-- R120, R121: an integer instruction whose exact result is wrapped, or clamped and counted. -/
theorem exec_fitInt {n : NodeId} {w : VWord} {s : State} {x : Instr} {v : Nat → Int} (f : Nat → Nat → Nat → Int) (h : vReady n s)
    (het : etInt (vEt w) = true)
    (hx : exec x s = vResidue n s none (etInt (vEt w)) (tileOp n w 4 (fun a b c => fitInt (vEt w) (vSat w) (f a b c))))
    (hv : ∀ i, f (element (etW (vEt w)) ((s.node n).core.tile (vA w)) i) (element (etW (vEt w)) ((s.node n).core.tile (vB w)) i)
      (element (etW (vEt w)) ((s.node n).core.tile (vC w)) i) = v i) :
    ∃ t, exec x s = .next t ∧ tileResult n w (etW (vEt w)) 4 (fun i => inElement (vEt w) (vSat w) (v i))
      (fun i => vSat w && (decide (v i < elMin (vEt w)) || decide (elMax (vEt w) < v i))) s t :=
  exec_tileOp _ h (hx.trans (vResidue_none ..)) het (fun i => by rw [fitInt_eq, hv]) (fun _ => inElement_lt _ _ _)

/-- R120: an integer instruction on the values of its elements. -/
theorem exec_tintOp {n : NodeId} {w : VWord} {s : State} {x : Instr} {v : Nat → Int} (f : Int → Int → Int → Int) (h : vReady n s)
    (het : etInt (vEt w) = true) (hx : exec x s = tintOp n w s none f)
    (hv : ∀ i, f (elInt (vEt w) (element (etW (vEt w)) ((s.node n).core.tile (vA w)) i))
      (elInt (vEt w) (element (etW (vEt w)) ((s.node n).core.tile (vB w)) i))
      (elInt (vEt w) (element (etW (vEt w)) ((s.node n).core.tile (vC w)) i)) = v i) :
    ∃ t, exec x s = .next t ∧ tileResult n w (etW (vEt w)) 4 (fun i => inElement (vEt w) (vSat w) (v i))
      (fun i => vSat w && (decide (v i < elMin (vEt w)) || decide (elMax (vEt w) < v i))) s t :=
  exec_fitInt (fun a b c => f (elInt (vEt w) a) (elInt (vEt w) b) (elInt (vEt w) c)) h het hx hv

/-- R120: an integer instruction on raw elements whose results all fit the element, so that none is clamped. -/
theorem exec_tlogOp {n : NodeId} {w : VWord} {s : State} {x : Instr} {res : Nat → Nat} (f : Nat → Nat → Nat) (h : vReady n s)
    (het : etInt (vEt w) = true) (hx : exec x s = tlogOp n w s (fun a b => (f a b, false)))
    (hres : ∀ i, f (element (etW (vEt w)) ((s.node n).core.tile (vA w)) i) (element (etW (vEt w)) ((s.node n).core.tile (vB w)) i) = res i)
    (hlt : ∀ a b, a < 2 ^ etW (vEt w) → b < 2 ^ etW (vEt w) → f a b < 2 ^ etW (vEt w)) :
    ∃ t, exec x s = .next t ∧ tileResult n w (etW (vEt w)) 4 res (fun _ => false) s t := by
  refine exec_tileOp _ h hx het (fun i => congrArg (·, false) (hres i)) (fun i => ?_)
  rw [← hres]
  exact hlt _ _ (element_lt _ _ _) (element_lt _ _ _)

theorem selOp_eq (n : NodeId) (w : VWord) :
    selOp n w = fun nd s => coreDone n s (tileCharge n 4) none (fun c => c.setTile (vD w) (tileOf (etW (vEt w))
      ((List.range (32768 / etW (vEt w))).map (fun i => element (etW (vEt w))
        (nd.core.tile (if active (etW (vEt w)) (nd.core.pred (vPred w)) i then vA w else vB w)) i)))) := by
  funext nd s
  simp only [selOp, actives_eq_map, elems_eq_map, List.zip_map', List.zipWith_map, List.zipWith_self, apply_ite nd.core.tile, ite_apply,
    apply_ite (element (etW (vEt w)))]

/-- R116, R117: SEL picks by the predicate, whatever PEN holds. -/
theorem exec_selOp {n : NodeId} {w : VWord} {s : State} {x : Instr} {ok : Bool} (h : vReady n s)
    (hx : exec x s = vIssue n s true ok (selOp n w)) (hok : ok = true) :
    ∃ t, exec x s = .next t ∧ retires n (tileCharge n 4) (nextPc n s) s t ∧ onlyCore n s t ∧
      sameTiles [vD w % 16] (s.node n).core (t.node n).core ∧
      ∀ i, i < 32768 / etW (vEt w) → element (etW (vEt w)) ((t.node n).core.tile (vD w)) i =
        element (etW (vEt w)) ((s.node n).core.tile (if active (etW (vEt w)) ((s.node n).core.pred (vPred w)) i then vA w else vB w)) i := by
  rw [selOp_eq] at hx
  obtain ⟨t, ht, hret, honly, hcore⟩ := exec_completes h hx hok (fun _ => ⟨rfl, rfl, rfl⟩)
  refine ⟨t, ht, hret, honly, ?_, fun i hi => ?_⟩
  · rw [hcore]
    exact sameTiles_setTile _ _ _ _ (List.mem_singleton.2 rfl)
  · rw [hcore, tile_retiredCore, tile_setTile, if_pos rfl, element_tileOf_map _ _ hi]
    exact Nat.mod_eq_of_lt (element_lt _ _ _)

end Sys2Proof.Proofs
end

section
/-! PROOF. The scalar and the integer tile instructions (R116, R117, R120, R121, R680). -/

namespace Sys2Proof.Proofs
open Sys2Proof Sys2Proof.Machine Sys2Proof.Laws

theorem shiftRight_lt_two_pow {a w k : Nat} (ha : a < 2 ^ w) : a >>> k < 2 ^ w :=
  lt_of_le_of_lt (by rw [Nat.shiftRight_eq_div_pow]; exact Nat.div_le_self _ _) ha

/-- Settles O1: each instruction is one of the shared forms (an SCL operation, an integer result wrapped or clamped, a raw element
result, SEL), and its own part is the arithmetic of its result. -/
theorem integerResults : Obligations.IntegerResults := by
  unfold Obligations.IntegerResults
  refine ⟨fun n w s h => ?_, fun n w s h het => ⟨?_, ?_, exec_selOp h rfl het⟩⟩
  · simp only [List.forall_mem_cons]
    refine ⟨?_, ?_, ?_, ?_, ?_, ?_, ?_, ?_, ?_, ?_, ?_, List.forall_mem_nil _⟩
    · exact exec_sclOp (· + ·) h rfl (BitVec.toNat_add _ _)
    · exact exec_sclOp (· - ·) h rfl (toNat_sub_eq _ _)
    · exact exec_sclOp (· * ·) h rfl (BitVec.toNat_mul _ _)
    · exact exec_sclOp (· &&& ·) h rfl (BitVec.toNat_and _ _)
    · exact exec_sclOp (· ||| ·) h rfl (BitVec.toNat_or _ _)
    · exact exec_sclOp (· ^^^ ·) h rfl (BitVec.toNat_xor _ _)
    · exact exec_sclOp (fun a b => a <<< shAmt b) h rfl (toNat_shiftLeft_eq _ _)
    · exact exec_sclOp (fun a b => a >>> shAmt b) h rfl (toNat_shiftRight_eq _ _)
    · exact exec_sclOp (fun a b => a.sshiftRight (shAmt b)) h rfl (toNat_sshiftRight_eq _ _)
    · exact exec_setScalar (fun _ _ => (BitVec.ofNat 24 (vImm w)).signExtend 64) h rfl rfl (toNat_signExtend_eq _)
    · exact exec_setScalar (fun _ c => setFld (c.scalar (vD w)) 47 24 (vImm w)) h rfl rfl (toNat_setFld_eq _ (vImm_lt w))
  · simp only [List.forall_mem_cons]
    refine ⟨?_, ?_, ?_, ?_, ?_, ?_, ?_, ?_, ?_, List.forall_mem_nil _⟩
    · exact exec_tintOp (fun a b _ => a + b) h het rfl (fun _ => rfl)
    · exact exec_tintOp (fun a b _ => a - b) h het rfl (fun _ => rfl)
    · exact exec_tintOp (fun a b _ => a * b) h het rfl (fun _ => rfl)
    · exact exec_tintOp (fun a _ _ => (a.natAbs : Int)) h het rfl (fun _ => rfl)
    · exact exec_tintOp (fun a _ _ => -a) h het rfl (fun _ => rfl)
    · exact exec_tintOp (fun a b _ => min a b) h het rfl (fun _ => rfl)
    · exact exec_tintOp (fun a b _ => max a b) h het rfl (fun _ => rfl)
    · exact exec_tintOp (fun a b c => a * b + c) h het rfl (fun _ => rfl)
    · exact exec_fitInt (fun a b _ => elInt (vEt w) a * 2 ^ (b % 256)) h het rfl (fun _ => rfl)
  · simp only [List.forall_mem_cons]
    refine ⟨?_, ?_, ?_, ?_, ?_, ?_, ?_, ?_, List.forall_mem_nil _⟩
    · exact exec_tlogOp (fun a b => intCode (etW (vEt w)) (elInt (vEt w) a * elInt (vEt w) b / 2 ^ etW (vEt w))) h het rfl
        (fun _ => rfl) (fun _ _ _ _ => intCode_lt _ _)
    · exact exec_tlogOp (· &&& ·) h het rfl (fun _ => rfl) (fun _ _ ha _ => lt_of_le_of_lt Nat.and_le_left ha)
    · exact exec_tlogOp (· ||| ·) h het rfl (fun _ => rfl) (fun _ _ => Nat.or_lt_two_pow)
    · exact exec_tlogOp (· ^^^ ·) h het rfl (fun _ => rfl) (fun _ _ => Nat.xor_lt_two_pow)
    · exact exec_tlogOp (fun a _ => 2 ^ etW (vEt w) - 1 - a) h het rfl (fun _ => rfl) (fun a _ ha _ => by omega)
    · exact exec_tlogOp (fun a b => a >>> (b % 256)) h het rfl (fun _ => Nat.shiftRight_eq_div_pow _ _)
        (fun _ _ ha _ => shiftRight_lt_two_pow ha)
    · exact exec_tlogOp (fun a b => intCode (etW (vEt w)) (elInt (vEt w) a / 2 ^ (b % 256))) h het rfl
        (fun _ => rfl) (fun _ _ _ _ => intCode_lt _ _)
    · refine exec_tlogOp (fun a b => if etW (vEt w) ≤ b % 256 then 0 else intCode (etW (vEt w)) (rneShift (elInt (vEt w) a) (b % 256)))
        h het rfl (fun _ => rfl) (fun _ _ _ _ => ?_)
      split
      · positivity
      · exact intCode_lt _ _

end Sys2Proof.Proofs
end

section
/-! PROOF. Compares, predicate logic and POPC (R113, R116, R117, R122, R681). -/

namespace Sys2Proof.Proofs
open Sys2Proof Sys2Proof.Machine Sys2Proof.Laws

/-! ### Bits of a predicate tile (R113) -/

theorem etW_cases {et : Nat} (h : etAny et = true) : etW et = 8 ∨ etW et = 16 ∨ etW et = 32 := by
  have het : et < 9 := by simpa [etAny] using h
  interval_cases et <;> simp [etW, etFmt, Fmt.width]

/-- The element whose bytes predicate bit k belongs to is one of the view. -/
theorem bit_index_lt {w k : Nat} (hw : w = 8 ∨ w = 16 ∨ w = 32) (hk : k < 4096) : k / (w / 8) < 32768 / w := by
  rcases hw with rfl | rfl | rfl <;> omega

theorem testBit_packElems {w : Nat} (hw : 0 < w) (l : List Nat) (k : Nat) :
    (packElems w l).testBit k = (l.getD (k / w) 0).testBit (k % w) := by
  have h := congrArg (·.testBit (k % w)) (packElems_get w l (k / w))
  simpa [Nat.testBit_mod_two_pow, Nat.testBit_shiftRight, Nat.mod_lt k hw, Nat.div_add_mod] using h

/-- Every bit of an element's bytes holds the element's value (R113). -/
theorem getLsbD_predOf {w k : Nat} (hw : w = 8 ∨ w = 16 ∨ w = 32) (b : Nat → Bool) (hk : k < 4096) :
    (predOf w ((List.range (32768 / w)).map b)).getLsbD k = b (k / (w / 8)) := by
  have hpos : 0 < w / 8 := by omega
  rw [predOf, BitVec.getLsbD_ofNat, decide_eq_true hk, Bool.true_and, testBit_packElems hpos, List.map_map,
    getD_map_range _ 0 (bit_index_lt hw hk), Function.comp_apply]
  cases b (k / (w / 8)) with
  | false => exact Nat.zero_testBit _
  | true => exact (Nat.testBit_two_pow_sub_one _ _).trans (decide_eq_true (Nat.mod_lt _ hpos))

/-- A predicate write leaves the bits of unwritten elements as they were (R117). -/
theorem getLsbD_writePred {w k : Nat} (hw : w = 8 ∨ w = 16 ∨ w = 32) (word : VWord) (c : Core) (v : Pred) (hk : k < 4096) :
    ((writePred word w c v).pred (vD word)).getLsbD k =
      if written w word c (k / (w / 8)) then v.getLsbD k else (c.pred (vD word)).getLsbD k := by
  rw [writePred, pred_setPred, if_pos rfl, writeMask_eq_map]
  simp only [BitVec.getLsbD_or, BitVec.getLsbD_and, BitVec.getLsbD_not, getLsbD_predOf hw _ hk, decide_eq_true hk, Bool.true_and]
  cases written w word c (k / (w / 8)) <;> simp

/-! ### Instructions with a predicate result -/

/-- A completed predicate instruction of core n: bit k of pD is `res k` where its element is written, and nothing else of the core changes. -/
def predResult (n : NodeId) (word : VWord) (w : Nat) (res : Nat → Bool) (s t : State) : Prop :=
  let c := (s.node n).core
  let d := (t.node n).core
  retires n (tileCharge n 4) (nextPc n s) s t ∧ onlyCore n s t ∧ onlyFiles c d ∧ sameTiles [] c d ∧ sameScalars [] c d ∧
  samePreds [vD word % 8] c d ∧
  ∀ k, k < 4096 → (d.pred (vD word)).getLsbD k = if written w word c (k / (w / 8)) then res k else (c.pred (vD word)).getLsbD k

theorem exec_writePred {n : NodeId} {w : VWord} {s : State} {x : Instr} {res : Nat → Bool} (v : Node → Pred) (h : vReady n s)
    (het : etAny (vEt w) = true)
    (hx : exec x s = vIssue n s true (etAny (vEt w)) (fun nd s => coreDone n s (tileCharge n 4) none (fun c => writePred w (etW (vEt w)) c (v nd))))
    (hv : ∀ k, k < 4096 → (v (s.node n)).getLsbD k = res k) :
    ∃ t, exec x s = .next t ∧ predResult n w (etW (vEt w)) res s t := by
  obtain ⟨t, ht, hret, honly, hcore⟩ := exec_completes h hx het (fun _ => ⟨rfl, rfl, rfl⟩)
  refine ⟨t, ht, hret, honly, ?_⟩
  rw [hcore]
  refine ⟨rfl, fun _ _ _ => rfl, fun _ _ _ => rfl, samePreds_setPred _ _ _, fun k hk => ?_⟩
  rw [pred_retiredCore, getLsbD_writePred (etW_cases het) _ _ _ hk, hv k hk]

/-- R113, R122: a compare of elements, floating point by value or integer by value. -/
theorem exec_tcmpOp {n : NodeId} {w : VWord} {s : State} {x : Instr} {cmp : Nat → Nat → Bool} (fi : Int → Int → Bool) (ff : Num → Num → Bool)
    (h : vReady n s) (het : etAny (vEt w) = true) (hx : exec x s = tcmpOp n w s fi ff)
    (hcmp : ∀ x y, cmp x y = if etFp (vEt w) then ff (elFp (vEt w) x) (elFp (vEt w) y) else fi (elInt (vEt w) x) (elInt (vEt w) y)) :
    ∃ t, exec x s = .next t ∧ predResult n w (etW (vEt w)) (fun k =>
      cmp (element (etW (vEt w)) ((s.node n).core.tile (vA w)) (k / (etW (vEt w) / 8)))
        (element (etW (vEt w)) ((s.node n).core.tile (vB w)) (k / (etW (vEt w) / 8)))) s t := by
  refine exec_writePred _ h het hx (fun k hk => ?_)
  rw [elems_eq_map, elems_eq_map, List.zipWith_map, List.zipWith_self, getLsbD_predOf (etW_cases het) _ hk, hcmp]

/-- R116: predicate logic works bit by bit. -/
theorem exec_predOp {n : NodeId} {w : VWord} {s : State} {x : Instr} {res : Nat → Bool} (f : Pred → Pred → Pred) (h : vReady n s)
    (het : etAny (vEt w) = true) (hx : exec x s = predOp n w s f)
    (hf : ∀ k, k < 4096 → (f ((s.node n).core.pred (vA w)) ((s.node n).core.pred (vB w))).getLsbD k = res k) :
    ∃ t, exec x s = .next t ∧ predResult n w (etW (vEt w)) res s t :=
  exec_writePred (fun nd => f (nd.core.pred (vA w)) (nd.core.pred (vB w))) h het hx hf

/-- LE and GE join LT or GT with EQ in either kind of element (R122). -/
theorem or_ite_lt_eq (fp lf ef : Bool) (a b : Int) :
    ((if fp then lf else decide (a < b)) || (if fp then ef else a == b)) = if fp then lf || ef else decide (a ≤ b) := by
  cases fp with
  | true => rfl
  | false =>
    rw [Bool.eq_iff_iff]
    simp [le_iff_lt_or_eq]

theorem or_ite_gt_eq (fp lf ef : Bool) (a b : Int) :
    ((if fp then lf else decide (b < a)) || (if fp then ef else a == b)) = if fp then lf || ef else decide (b ≤ a) := by
  rw [BEq.comm, or_ite_lt_eq]

/-! ### Counts of active elements (R681) -/

theorem countP_actives (w : Nat) (p : Pred) : (actives w p).countP id = (List.range (32768 / w)).countP (active w p) := by
  rw [actives_eq_map, List.countP_map]
  rfl

/-- The number of active elements of a view fits a scalar register. -/
theorem toNat_countP (w : Nat) (p : Nat → Bool) :
    (BitVec.ofNat 64 ((List.range (32768 / w)).countP p)).toNat = (List.range (32768 / w)).countP p := by
  have hlen : (List.range (32768 / w)).countP p ≤ 32768 / w := by simpa using List.countP_le_length (p := p) (l := List.range (32768 / w))
  have hdiv : 32768 / w ≤ 32768 := Nat.div_le_self _ _
  exact Nat.mod_eq_of_lt (by omega)

theorem exec_popc {n : NodeId} {w : VWord} {s : State} (h : vReady n s) (het : etAny (vEt w) = true) :
    ∃ t, exec (.popc n w) s = .next t ∧ scalarResult n (tileCharge n 4) (vD w)
      ((List.range (32768 / etW (vEt w))).countP (active (etW (vEt w)) ((s.node n).core.pred (vPred w)))) s t :=
  exec_setScalar (fun nd _ => BitVec.ofNat 64 ((actives (etW (vEt w)) (nd.core.pred (vPred w))).countP id)) h rfl het
    (by rw [countP_actives, toNat_countP])

end Sys2Proof.Proofs
end

section
/-! PROOF. Permuting instructions: COMPRESS, EXPAND, TRANS, BCAST and ROWB (R116, R125, R126). -/

namespace Sys2Proof.Proofs
open Sys2Proof Sys2Proof.Machine Sys2Proof.Laws

/-! ### The lists that COMPRESS and EXPAND put together -/

/-- A position that is kept comes after the kept ones below it. -/
theorem filter_range_getElem? {on : Nat → Bool} {N i : Nat} (hi : i < N) (hon : on i = true) :
    ((List.range N).filter on)[(List.range i).countP on]? = some i := by
  obtain ⟨m, rfl⟩ : ∃ m, N = i + (m + 1) := ⟨N - i - 1, by omega⟩
  rw [List.range_add, List.filter_append, List.countP_eq_length_filter, List.getElem?_append_right (Nat.le_refl _), Nat.sub_self,
    List.range_succ_eq_map, List.map_cons, Nat.add_zero, List.filter_cons_of_pos hon]
  rfl

/-- The elements of tA that COMPRESS takes (R125). -/
def pickedElems (w : VWord) (nd : Node) : List Nat :=
  (((actives (etW (vEt w)) (nd.core.pred (vPred w))).zip (elems (etW (vEt w)) (nd.core.tile (vA w)))).filter (·.1)).map (·.2)

theorem pickedElems_eq (w : VWord) (nd : Node) :
    pickedElems w nd = ((List.range (32768 / etW (vEt w))).filter (active (etW (vEt w)) (nd.core.pred (vPred w)))).map
      (element (etW (vEt w)) (nd.core.tile (vA w))) := by
  rw [pickedElems, actives_eq_map, elems_eq_map, List.zip_map', List.filter_map, List.map_map]
  rfl

theorem pickedElems_length (w : VWord) (nd : Node) :
    (pickedElems w nd).length = (List.range (32768 / etW (vEt w))).countP (active (etW (vEt w)) (nd.core.pred (vPred w))) := by
  rw [pickedElems_eq, List.length_map, List.countP_eq_length_filter]

theorem expandGo_length {ps : List Bool} {as cs : List Nat} (h : ps.length = cs.length) : (expandGo ps as cs).length = ps.length := by
  induction ps, as, cs using expandGo.induct with
  | case1 as cs => rfl
  | case2 ps as hps => simp_all
  | case3 ps a as c cs ih => simp [expandGo, ih (Nat.succ.inj h)]
  | case4 ps c cs ih => simp [expandGo, ih (Nat.succ.inj h)]
  | case5 ps as c cs ih => simp [expandGo, ih (Nat.succ.inj h)]

/-- EXPAND gives an active position the element of its rank, and leaves the others to tC (R126). -/
theorem expandGo_getD {ps : List Bool} {as cs : List Nat} (h : ps.length = cs.length) (i : Nat) :
    (expandGo ps as cs).getD i 0 = if ps.getD i false then as.getD ((ps.take i).countP id) 0 else cs.getD i 0 := by
  induction ps, as, cs using expandGo.induct generalizing i with
  | case1 as cs => rw [List.length_eq_zero_iff.1 h.symm]; rfl
  | case2 ps as hps => simp_all
  | case3 ps a as c cs ih =>
    cases i with
    | zero => rfl
    | succ j => simpa [expandGo] using ih (Nat.succ.inj h) j
  | case4 ps c cs ih =>
    cases i with
    | zero => rfl
    | succ j => simpa [expandGo] using ih (Nat.succ.inj h) j
  | case5 ps as c cs ih =>
    cases i with
    | zero => rfl
    | succ j => simpa [expandGo] using ih (Nat.succ.inj h) j

theorem countP_take_map_range (on : Nat → Bool) {N i : Nat} (hi : i ≤ N) :
    (((List.range N).map on).take i).countP id = (List.range i).countP on := by
  rw [← List.map_take, List.take_range, Nat.min_eq_left hi, List.countP_map]
  rfl

/-! ### COMPRESS and EXPAND -/

/-- A completed COMPRESS or EXPAND of core n: tD holds the elements of l, sB the count m, and nothing else of the core changes. -/
def selectResult (n : NodeId) (w : VWord) (l : List Nat) (m : Nat) (s t : State) : Prop :=
  let c := (s.node n).core
  let d := (t.node n).core
  retires n (tileCharge n 8) (nextPc n s) s t ∧ onlyCore n s t ∧ onlyFiles c d ∧ sameTiles [vD w % 16] c d ∧ sameScalars [vB w] c d ∧
  samePreds [] c d ∧ (d.scalar (vB w)).toNat = m ∧ d.tile (vD w) = tileOf (etW (vEt w)) l

theorem exec_setTile_setScalar {n : NodeId} {w : VWord} {s : State} {x : Instr} {on : Nat → Bool} {picked : List Nat} (l : Node → List Nat)
    (m : Node → Nat) (h : vReady n s) (het : etAny (vEt w) = true)
    (hx : exec x s = vIssue n s true (etAny (vEt w)) (fun nd s => coreDone n s (tileCharge n 8) none (fun c =>
      (c.setTile (vD w) (tileOf (etW (vEt w)) (l nd))).setScalar (vB w) (BitVec.ofNat 64 (m nd)))))
    (hl : l (s.node n) = picked) (hm : m (s.node n) = (List.range (32768 / etW (vEt w))).countP on) :
    ∃ t, exec x s = .next t ∧ selectResult n w picked ((List.range (32768 / etW (vEt w))).countP on) s t := by
  obtain ⟨t, ht, hret, honly, hcore⟩ := exec_completes h hx het (fun _ => ⟨rfl, rfl, rfl⟩)
  unfold selectResult
  refine ⟨t, ht, hret, honly, ?_⟩
  rw [hcore]
  refine ⟨rfl, ?_, ?_, fun _ _ _ => rfl, ?_, ?_⟩
  · exact sameTiles_setTile _ (s.node n).core _ _ (List.mem_singleton.2 rfl)
  · exact sameScalars_setScalar _ _ _
  · rw [scalar_retiredCore, scalar_setScalar, if_pos rfl, hm, toNat_countP]
  · rw [← hl]
    exact (tile_setTile _ _ _ _).trans (if_pos rfl)

/-- R125: COMPRESS packs the active elements from element 0 and zeros the rest; sB holds their count. -/
theorem element_compress {ew : Nat} (on : Nat → Bool) (t : Tile) :
    (∀ i, i < 32768 / ew → on i = true →
      element ew (tileOf ew (((List.range (32768 / ew)).filter on).map (element ew t))) ((List.range i).countP on) = element ew t i) ∧
    ∀ k, (List.range (32768 / ew)).countP on ≤ k →
      element ew (tileOf ew (((List.range (32768 / ew)).filter on).map (element ew t))) k = 0 := by
  have hlen : (((List.range (32768 / ew)).filter on).map (element ew t)).length ≤ 32768 / ew := by
    simpa using List.length_filter_le on (List.range (32768 / ew))
  have hfit : ew * (((List.range (32768 / ew)).filter on).map (element ew t)).length ≤ 32768 :=
    (Nat.mul_le_mul_left _ hlen).trans (Nat.mul_div_le 32768 ew)
  refine ⟨fun i hi hon => ?_, fun k hk => ?_⟩
  · rw [element_tileOf hfit, List.getD_eq_getElem?_getD, List.getElem?_map, filter_range_getElem? hi hon]
    exact Nat.mod_eq_of_lt (element_lt _ _ _)
  · rw [List.countP_eq_length_filter] at hk
    rw [element_tileOf hfit, List.getD_eq_default _ _ (by simpa using hk), Nat.zero_mod]

/-- R126: EXPAND gives each active position the element of its rank and every other position its own element of tC. -/
theorem element_expand {ew i : Nat} (p : Pred) (ta tc : Tile) (hi : i < 32768 / ew) :
    element ew (tileOf ew (expandGo (actives ew p) (elems ew ta) (elems ew tc))) i =
      if active ew p i then element ew ta ((List.range i).countP (active ew p)) else element ew tc i := by
  have hlen : (actives ew p).length = (elems ew tc).length := by simp [actives]
  have hrank : (List.range i).countP (active ew p) < 32768 / ew := by
    have hle := List.countP_le_length (p := active ew p) (l := List.range i)
    rw [List.length_range] at hle
    omega
  rw [element_tileOf (by rw [expandGo_length hlen, hlen, elems_length]; exact Nat.mul_div_le 32768 ew), expandGo_getD hlen,
    actives_eq_map, countP_take_map_range _ hi.le, getD_map_range _ _ hi, elems_eq_map, getD_map_range _ _ hrank, elems_eq_map,
    getD_map_range _ _ hi]
  split <;> exact Nat.mod_eq_of_lt (element_lt _ _ _)

theorem exec_compress {n : NodeId} {w : VWord} {s : State} (h : vReady n s) (het : etAny (vEt w) = true) :
    ∃ t, exec (.compress n w) s = .next t ∧ selectResult n w
      (((List.range (32768 / etW (vEt w))).filter (active (etW (vEt w)) ((s.node n).core.pred (vPred w)))).map
        (element (etW (vEt w)) ((s.node n).core.tile (vA w))))
      ((List.range (32768 / etW (vEt w))).countP (active (etW (vEt w)) ((s.node n).core.pred (vPred w)))) s t :=
  exec_setTile_setScalar (pickedElems w) (fun nd => (pickedElems w nd).length) h het rfl (pickedElems_eq _ _) (pickedElems_length _ _)

theorem exec_expand {n : NodeId} {w : VWord} {s : State} (h : vReady n s) (het : etAny (vEt w) = true) :
    ∃ t, exec (.expand n w) s = .next t ∧ selectResult n w
      (expandGo (actives (etW (vEt w)) ((s.node n).core.pred (vPred w))) (elems (etW (vEt w)) ((s.node n).core.tile (vA w)))
        (elems (etW (vEt w)) ((s.node n).core.tile (vC w))))
      ((List.range (32768 / etW (vEt w))).countP (active (etW (vEt w)) ((s.node n).core.pred (vPred w)))) s t :=
  exec_setTile_setScalar (fun nd => expandGo (actives (etW (vEt w)) (nd.core.pred (vPred w))) (elems (etW (vEt w)) (nd.core.tile (vA w)))
    (elems (etW (vEt w)) (nd.core.tile (vC w)))) (fun nd => (actives (etW (vEt w)) (nd.core.pred (vPred w))).countP id) h het rfl
    rfl (countP_actives _ _)

/-! ### TRANS, BCAST and ROWB (R116) -/

theorem exec_trans {n : NodeId} {w : VWord} {s : State} (h : vReady n s) (het : etAny (vEt w) = true) :
    ∃ t, exec (.trans n w) s = .next t ∧
      tileResult n w 32 4 (fun i => element 32 ((s.node n).core.tile (vA w)) (32 * (i % 32) + i / 32)) (fun _ => false) s t := by
  refine exec_writeTile _ _ (fun nd => (List.range 1024).map (fun i => ((elems 32 (nd.core.tile (vA w))).getD (32 * (i % 32) + i / 32) 0, false)))
    h rfl het (List.map_congr_left (fun i hi => ?_)) (fun _ _ => element_lt _ _ _)
  have hpos : 32 * (i % 32) + i / 32 < 32768 / 32 := by
    have hlt := List.mem_range.1 hi
    omega
  rw [elems_eq_map, getD_map_range _ _ hpos]

theorem exec_bcast {n : NodeId} {w : VWord} {s : State} (h : vReady n s) (het : etAny (vEt w) = true) :
    ∃ t, exec (.bcast n w) s = .next t ∧
      tileResult n w (etW (vEt w)) 4 (fun _ => ((s.node n).core.scalar (vA w)).toNat % 2 ^ etW (vEt w)) (fun _ => false) s t :=
  exec_writeTile _ _ (fun nd => (List.range (32768 / etW (vEt w))).map (fun _ => ((nd.core.scalar (vA w)).toNat % 2 ^ etW (vEt w), false)))
    h rfl het rfl (fun _ _ => Nat.mod_lt _ (Nat.two_pow_pos _))

theorem take_drop_map_range {α : Type} (f : Nat → α) {N a m : Nat} (h : a + m ≤ N) :
    (((List.range N).map f).drop a).take m = (List.range m).map (fun j => f (a + j)) := by
  obtain ⟨k, rfl⟩ := Nat.exists_eq_add_of_le h
  rw [List.range_add, List.range_add, List.map_append, List.map_append, List.append_assoc, List.drop_left' (by simp),
    List.take_left' (by simp), List.map_map]
  rfl

/-- One block repeated is a list that is periodic in its position. -/
theorem flatMap_range_map {α : Type} (f : Nat → α) (m p : Nat) :
    (List.range m).flatMap (fun _ => (List.range p).map f) = (List.range (m * p)).map (fun i => f (i % p)) := by
  induction m with
  | zero => simp
  | succ m ih =>
    rw [List.range_succ, List.flatMap_append, ih, List.flatMap_singleton, Nat.succ_mul, List.range_add, List.map_append, List.map_map]
    congr 1
    refine List.map_congr_left (fun j hj => ?_)
    rw [Function.comp_apply, Nat.mul_add_mod', Nat.mod_eq_of_lt (List.mem_range.1 hj)]

theorem exec_rowb {n : NodeId} {w : VWord} {s : State} (h : vReady n s) (het : etAny (vEt w) = true) :
    ∃ t, exec (.rowb n w) s = .next t ∧ tileResult n w (etW (vEt w)) 4 (fun i => element (etW (vEt w)) ((s.node n).core.tile (vA w))
      (1024 / etW (vEt w) * vImmF w 4 0 + i % (1024 / etW (vEt w)))) (fun _ => false) s t := by
  have hview : 32 * (1024 / etW (vEt w)) = 32768 / etW (vEt w) := by
    rcases etW_cases het with hw | hw | hw <;> rw [hw]
  have hrow : 1024 / etW (vEt w) * vImmF w 4 0 + 1024 / etW (vEt w) ≤ 32768 / etW (vEt w) := by
    have himm : vImmF w 4 0 + 1 ≤ 32 := fld_lt w 4 0
    calc 1024 / etW (vEt w) * vImmF w 4 0 + 1024 / etW (vEt w) = (vImmF w 4 0 + 1) * (1024 / etW (vEt w)) := by ring
      _ ≤ 32 * (1024 / etW (vEt w)) := Nat.mul_le_mul_right _ himm
      _ = 32768 / etW (vEt w) := hview
  refine exec_writeTile _ _ (fun nd => (List.range 32).flatMap (fun _ => (((elems (etW (vEt w)) (nd.core.tile (vA w))).drop
    (1024 / etW (vEt w) * vImmF w 4 0)).take (1024 / etW (vEt w))).map (fun x => (x, false)))) h rfl het ?_ (fun _ _ => element_lt _ _ _)
  rw [elems_eq_map, take_drop_map_range _ hrow, List.map_map, flatMap_range_map, hview]
  rfl

end Sys2Proof.Proofs
end

section
/-! PROOF. Compares, predicate logic, counts and permuting instructions together (R113, R116, R117, R122, R125, R126, R681). -/

namespace Sys2Proof.Proofs
open Sys2Proof Sys2Proof.Machine Sys2Proof.Laws

/-- Settles O4: a compare or predicate instruction is one masked predicate write, COMPRESS and EXPAND one tile write with a count, and
TRANS, BCAST and ROWB one masked tile write. -/
theorem compareAndPermuteResults : Obligations.CompareAndPermuteResults := by
  unfold Obligations.CompareAndPermuteResults
  refine ⟨fun n w s h het => ⟨?_, ?_, ?_⟩, fun n w s h het => ⟨?_, ?_, exec_trans h het, exec_bcast h het, exec_rowb h het⟩⟩
  · simp only [List.forall_mem_cons]
    refine ⟨?_, ?_, ?_, ?_, ?_, ?_, List.forall_mem_nil _⟩
    · exact exec_tcmpOp (fun a b => a == b) Num.eq h het rfl (fun _ _ => rfl)
    · exact exec_tcmpOp (fun a b => a != b) (fun a b => !(a.eq b)) h het rfl (fun _ _ => apply_ite not _ _ _)
    · exact exec_tcmpOp (fun a b => decide (a < b)) Num.lt h het rfl (fun _ _ => rfl)
    · exact exec_tcmpOp (fun a b => decide (a ≤ b)) (fun a b => a.lt b || a.eq b) h het rfl (fun _ _ => or_ite_lt_eq _ _ _ _ _)
    · exact exec_tcmpOp (fun a b => decide (b < a)) (fun a b => b.lt a) h het rfl (fun _ _ => rfl)
    · exact exec_tcmpOp (fun a b => decide (b ≤ a)) (fun a b => b.lt a || a.eq b) h het rfl (fun _ _ => or_ite_gt_eq _ _ _ _ _)
  · simp only [List.forall_mem_cons]
    refine ⟨?_, ?_, ?_, List.forall_mem_nil _⟩
    · exact exec_predOp (· &&& ·) h het rfl (fun _ _ => BitVec.getLsbD_and)
    · exact exec_predOp (· ||| ·) h het rfl (fun _ _ => BitVec.getLsbD_or)
    · refine exec_predOp (fun a _ => ~~~a) h het rfl (fun k hk => ?_)
      rw [BitVec.getLsbD_not, decide_eq_true hk, Bool.true_and]
  · obtain ⟨t, ht, hcount, hret, honly, hfiles, hscalars, htiles, hpreds⟩ := exec_popc h het
    exact ⟨t, ht, hret, honly, hfiles, htiles, hscalars, hpreds, hcount⟩
  · obtain ⟨t, ht, hret, honly, hfiles, htiles, hscalars, hpreds, hcount, htile⟩ := exec_compress h het
    obtain ⟨hpacked, hzero⟩ := element_compress (ew := etW (vEt w)) (active (etW (vEt w)) ((s.node n).core.pred (vPred w)))
      ((s.node n).core.tile (vA w))
    refine ⟨t, ht, hret, honly, hfiles, htiles, hscalars, hpreds, hcount, ?_⟩
    simp only [htile]
    exact ⟨hpacked, fun k hk _ => hzero k hk⟩
  · obtain ⟨t, ht, hret, honly, hfiles, htiles, hscalars, hpreds, hcount, htile⟩ := exec_expand h het
    refine ⟨t, ht, hret, honly, hfiles, htiles, hscalars, hpreds, hcount, fun i hi => ?_⟩
    rw [htile]
    exact element_expand _ _ _ hi

end Sys2Proof.Proofs
end

section
/-! PROOF. A core that meets the premises of the two statements, and what they then say of it. -/

namespace Sys2Proof.Proofs
open Sys2Proof Sys2Proof.Machine Sys2Proof.Laws

/-- V core 2 in a step at the first of its program's four instructions: s1 and s2 hold 5 and 7, its tiles and predicates zero. -/
def readyState : State :=
  State.reset.updNode 2 (fun nd => { nd with
    core := { nd.core with run := true, scalars := [(1, 5), (2, 7)] }
    pat := { nd.pat with phase := .inStep, slots := [(0, [(10, 4)])] } })

/-- ETYPE INT32 and PEN 0; operands 1 and 2, destination 3. -/
def readyWord : VWord := mkWord 54 [(39, 3), (34, 1), (29, 2)]

theorem vReady_readyState : vReady 2 readyState := ⟨by decide, by decide, by decide⟩

/-- The ETYPE premises of the tile clauses. -/
theorem etype_readyWord : etInt (vEt readyWord) = true ∧ etAny (vEt readyWord) = true := ⟨by decide, by decide⟩

theorem sclAdd_readyState : ∃ t, exec (.sclAdd 2 readyWord) readyState = .next t ∧ ((t.node 2).core.scalar 3).toNat = 12 := by
  obtain ⟨t, ht, hvalue, -⟩ := integerResults.1 2 readyWord readyState vReady_readyState _ List.mem_cons_self
  exact ⟨t, ht, hvalue.trans (by decide)⟩

theorem bcast_readyState : ∃ t, exec (.bcast 2 readyWord) readyState = .next t ∧ element 32 ((t.node 2).core.tile 3) 0 = 5 := by
  obtain ⟨-, -, -, ⟨t, ht, -, -, -, -, helem⟩, -⟩ := compareAndPermuteResults.2 2 readyWord readyState vReady_readyState etype_readyWord.2
  exact ⟨t, ht, (helem 0 (by decide)).trans (by decide)⟩

end Sys2Proof.Proofs
end
